-- ==== Sys2Proof/Word.lean ====
section
/-! DEFINITION. The words of the two serial links and the bounds of the accumulators.

Quantities of the coordinator are integers in the units of 00_scope.md, so they are `Nat` or `Int` in the
state. Only what a link carries as bits is a bit vector: a byte of the host link (R193) and a nine-bit
character of the station link (R177). -/

namespace Sys2Proof

/-- One byte of the host link (R193): eight data bits. -/
abbrev Byte := BitVec 8

/-- One character of the station link (R177): nine data bits; bit 8 marks the first character of a frame. -/
abbrev Char9 := BitVec 9

/-- The bound at which accumulators of volume and mass saturate, and, with its negative, signed owed
values (00_scope.md, Arithmetic). -/
abbrev accumulatorMax : Nat := 999999999

/-- Addition that saturates at the accumulator bound (00_scope.md, Arithmetic). -/
abbrev satAdd (a b : Nat) : Nat := min accumulatorMax (a + b)

/-- Addition of signed owed grout that saturates at plus or minus the accumulator bound. -/
abbrev satAddInt (a b : Int) : Int := max (-999999999) (min 999999999 (a + b))

/-- The nearest end of the range `lo` to `hi` when `x` is outside it (00_scope.md, "clamped"). -/
abbrev clampInt (lo hi x : Int) : Int := max lo (min hi x)

end Sys2Proof
end

