-- ==== Sys2Proof/Config.lean ====
section
/-! DEFINITION. What the part fixes in numbers, and the values the manual leaves open.

The open values are opaque constants: nothing in Lean can evaluate them, so nothing proved rests on a number
that the model chose. Each is named in a row of the assumption log. -/

namespace Sys2Proof.Config

/-- Rollback debt bound (R2). -/
abbrev rollbackMax : Nat := 2000
/-- Stroke bound (R4). -/
abbrev strokeMax : Nat := 30000
/-- Transit queue capacity (R74). -/
abbrev transitCapacity : Nat := 64
/-- Ring log capacity (R145). -/
abbrev logCapacity : Nat := 32
/-- Notice queue capacity (R197). -/
abbrev noticeCapacity : Nat := 32
/-- Receive queue capacity (R194). -/
abbrev receiveCapacity : Nat := 4
/-- Reply list capacity (R195). -/
abbrev replyCapacity : Nat := 8
/-- Call stack depth (R124). -/
abbrev stackCapacity : Nat := 8
/-- Steps that may complete at issue within one event (R115). -/
abbrev chainLimit : Nat := 128
/-- Gap timer of the host receiver, in milliseconds (R193). -/
abbrev gapMillis : Nat := 10
/-- Milliseconds in a second: the model's clock counts milliseconds. DESIGN CHOICE (log 3). -/
abbrev millis : Nat := 1000

/-- The volume of one pump stroke of a line while the geometry record is UNSET. The record then has no
value (R150) and R86 still counts strokes: the manual states no volume. Free value, log 8. -/
opaque unsetStrokeVolume : Nat → Nat

/-- The byte that stands for the cause in a MODE_CHANGED notice, by the class of cause (0 a request kind,
1 a halt cause, 2 the standstill timer, 3 a break event, 4 a host restart) and its code in that class. R175
lists the classes and no table numbers them. Free value, log 9. -/
opaque modeCauseByte : Nat → Nat → Byte

/-- How a HOLD_CHANGED notice for the emptying of the hold-reason set lists every reason removed (R164), by
the byte of the removed set. The manual states no layout for that list. Free value, log 10. -/
opaque holdsRemovedBytes : Byte → List Byte

/-- The byte that marks an ENVELOPE notice as entry (true) or exit (R51): no table numbers the two. Free
value, log 11. -/
opaque envelopeMarkByte : Bool → Byte

/-- The byte that marks an EXCAVATION notice as over (true) or under (R78, R79): no table numbers the two.
Free value, log 11. -/
opaque excavationMarkByte : Bool → Byte

/-- The bytes of the shortfall measure in the grout part of GET_STATUS (R109). Its range is that of seven
values of plus or minus 999,999,999, which none of the 1, 2 or 4 bytes of R201 holds. Free value, log 12. -/
opaque shortfallBytes : Int → List Byte

/-- Whether the tests of a trim change and of an activation (R63, R64, R69, R70) are made also while the BULKHEAD
station is not ONLINE, or R72 has its flags and the under-support state stay then: the rules conflict. Free value,
log 28. -/
opaque testsWhileLost : Bool

/-- Whether THU is told of the disabling of a thrust station that is NOT_SEEN, as R36 asks, or the owner is not told, as
R185 has it: the rules conflict. Free value, log 29. -/
opaque notSeenDisabledTold : Bool

end Sys2Proof.Config
end

