-- ==== Sys2Proof/Syntax.lean ====
section
/-! DEFINITION. The commands of the coordinator: one constructor of `Instr` per row of the opcode table.

A request command names the tag and the payload fields of the request it takes (R193, R201), as the numbers
the payload carries, before any range check: the checks are part of the request's meaning. -/

namespace Sys2Proof

/-- A frame of the host link without its marker, length and check bytes (R193): a request as received, a
reply or a notice as formed. -/
structure Frame where
  kind : Byte
  tag : Byte
  payload : List Byte
  deriving DecidableEq, Repr

/-- The 21 fields of the geometry record (section 8.1), in the order of its table. -/
structure Geometry where
  faceArea : Nat
  gapArea : Nat
  ringLength : Nat
  strokeMargin : Nat
  segmentsPerRing : Nat
  lineWeight : Vector Nat 6
  strokeVolume : Vector Nat 6
  beltMassPerPulse : Nat
  beltTransit : Nat
  ratedTorque : Nat
  pairMaxPressure : Nat
  deriving DecidableEq, Repr

/-- The 46 fields of a ground profile (section 8.2), in the order of its table. -/
structure Profile where
  quantum : Nat
  bankDensity : Nat
  conditioning : Nat
  fillFactor : Nat
  rollbackLimit : Nat
  holdPressure : Nat
  nMin : Nat
  tGroup : Nat
  tRelease : Nat
  tReseat : Nat
  k : Nat
  hLow : Nat
  hHigh : Nat
  hTrip : Nat
  ceilingPct : Nat
  throttlePct : Nat
  zoneSpeedCap : Nat
  rampRate : Nat
  tStall : Nat
  chamberTarget : Nat
  deadband : Nat
  kp : Nat
  stepMax : Nat
  chamberOver : Nat
  crownMin : Nat
  tUnder : Nat
  screwMax : Nat
  screwHold : Nat
  screwStill : Nat
  binHalt : Nat
  binResume : Nat
  excavTol : Nat
  excavSlack : Nat
  tExcav : Nat
  doseStart : Nat
  groutPMax : Nat
  groutHyst : Nat
  blockOwed : Nat
  tIdle : Nat
  tHold : Nat
  tFlush : Nat
  shortLimit : Nat
  shortResume : Nat
  tGshort : Nat
  stepTimeout : Nat
  tStill : Nat
  deriving DecidableEq, Repr

/-- The eight fields of a step entry as WRITE_STEP carries them (section 6.1), before their range checks. -/
structure StepFields where
  kind : Nat
  segment : Nat
  position : Nat
  width : Nat
  target : Nat
  stroke : Nat
  timeout : Nat
  overlap : Nat
  deriving DecidableEq, Repr

/-- The commands. The docstring of each constructor gives its row of the opcode table and its rule. -/
inductive Instr where
  /-- ADV_P_PULSE (R1): a rising edge of ADV-P with the level of ADV-D at the edge, true for high. -/
  | advPPulse (advD : Bool)
  /-- BELT_P_PULSE (R73): a rising edge of BELT-P. -/
  | beltPPulse
  /-- POWER_ON_RESET (R176): power is applied or RESET-N is asserted. -/
  | powerOnReset
  /-- RESET_END (R191): RESET-N is released. -/
  | resetEnd
  /-- HOST_FRAME_RECEIVED (R194): a complete host frame whose check bytes matched. -/
  | hostFrameReceived (frame : Frame)
  /-- GAP_TIMER_EXPIRY (R193): ten milliseconds since the last byte of a frame being received. -/
  | gapTimerExpiry
  /-- UNKNOWN_REQUEST_KIND (R194): the frame at the head of the receive queue is taken; its kind names no request. -/
  | unknownRequestKind
  /-- HOST_FRAME_SENT (R196): the end of sending a reply or notice. -/
  | hostFrameSent
  /-- COMMAND_FRAME_SENT (R178): the end of sending a station command frame. -/
  | commandFrameSent
  /-- STATION_REPLY (R180): the characters of a reply, in the order received, from the address character on. -/
  | stationReply (chars : List Char9)
  /-- REPLY_WINDOW_EXPIRY (R178). -/
  | replyWindowExpiry
  /-- GROUP_SHORT_TIMER_EXPIRY (R26). -/
  | groupShortTimerExpiry
  /-- RELEASE_TIMER_EXPIRY (R32) of the arc with this identifier. -/
  | releaseTimerExpiry (arc : Nat)
  /-- RESEAT_TIMER_EXPIRY (R35) of the arc with this identifier. -/
  | reseatTimerExpiry (arc : Nat)
  /-- STALL_TIMER_EXPIRY (R56). -/
  | stallTimerExpiry
  /-- UNDER_TIMER_EXPIRY (R70). -/
  | underTimerExpiry
  /-- EXCAV_TIMER_EXPIRY (R78). -/
  | excavTimerExpiry
  /-- AGE_TIMER_EXPIRY (R75) of the entry at the head of the transit queue. -/
  | ageTimerExpiry
  /-- IDLE_TIMER_EXPIRY (R91) of a grout line. -/
  | idleTimerExpiry (line : Nat)
  /-- HOLD_TIMER_EXPIRY (R92) of a grout line. -/
  | holdTimerExpiry (line : Nat)
  /-- FLUSH_TIMER_EXPIRY (R97) of a grout line. -/
  | flushTimerExpiry (line : Nat)
  /-- GSHORT_TIMER_EXPIRY (R105). -/
  | gshortTimerExpiry
  /-- STEP_TIMER_EXPIRY (R116). -/
  | stepTimerExpiry
  /-- STANDSTILL_TIMER_EXPIRY (R173). -/
  | standstillTimerExpiry
  /-- GET_STATUS (R198) of a part. -/
  | getStatus (tag : Byte) (part : Nat)
  /-- SET_GEOMETRY (R151) with all 21 fields. -/
  | setGeometry (tag : Byte) (fields : Geometry)
  /-- GET_GEOMETRY (R154). -/
  | getGeometry (tag : Byte)
  /-- WRITE_PROFILE (R153): the code of the profile's name and all 46 fields. -/
  | writeProfile (tag : Byte) (name : Nat) (fields : Profile)
  /-- READ_PROFILE (R154): the code of the profile's name. -/
  | readProfile (tag : Byte) (name : Nat)
  /-- SELECT_PROFILE (R155): the code of the profile's name. -/
  | selectProfile (tag : Byte) (name : Nat)
  /-- SET_MODE (R162): the code of the mode. -/
  | setMode (tag : Byte) (mode : Nat)
  /-- HOLD (R166): the code of on or off. -/
  | hold (tag : Byte) (switch : Nat)
  /-- STOP (R170). -/
  | stop (tag : Byte)
  /-- ACK_HALT (R171). -/
  | ackHalt (tag : Byte)
  /-- CUTTERHEAD (R43): speed and the code of the direction. -/
  | cutterhead (tag : Byte) (speed : Nat) (direction : Nat)
  /-- STEER (R23): the four group pressures. -/
  | steer (tag : Byte) (crown right invert left : Nat)
  /-- CHAMBER_TRIM (R68): the signed trim. -/
  | chamberTrim (tag : Byte) (trim : Int)
  /-- WRITE_STEP (R112): slot and step entry. -/
  | writeStep (tag : Byte) (slot : Nat) (entry : StepFields)
  /-- READ_STEP (R112): slot. -/
  | readStep (tag : Byte) (slot : Nat)
  /-- BUILD_START (R114): slot. -/
  | buildStart (tag : Byte) (slot : Nat)
  /-- BUILD_PAUSE (R127). -/
  | buildPause (tag : Byte)
  /-- BUILD_RESUME (R128). -/
  | buildResume (tag : Byte)
  /-- BUILD_ABORT (R130). -/
  | buildAbort (tag : Byte)
  /-- RECORD_SEGMENT (R133): the code of the segment kind, start pair and width. -/
  | recordSegment (tag : Byte) (kind start width : Nat)
  /-- GROUT_LINE_FLUSH (R96): a GROUT_LINE request whose action is FLUSH (code 0), or whose action is none of
  the three. -/
  | groutLineFlush (tag : Byte) (line : Nat) (action : Nat)
  /-- GROUT_LINE_ISOLATE (R98): a GROUT_LINE request whose action is ISOLATE. -/
  | groutLineIsolate (tag : Byte) (line : Nat)
  /-- GROUT_LINE_REINSTATE (R100): a GROUT_LINE request whose action is REINSTATE. -/
  | groutLineReinstate (tag : Byte) (line : Nat)
  /-- PAIR_REINSTATE (R37): pair index. -/
  | pairReinstate (tag : Byte) (pair : Nat)
  /-- STATION_ENABLE (R185): address and the code of on or off. -/
  | stationEnable (tag : Byte) (address : Nat) (switch : Nat)
  /-- SET_LINK_TIMING (R187): reply window in milliseconds. -/
  | setLinkTiming (tag : Byte) (window : Nat)
  /-- SET_RING_NUMBER (R148). -/
  | setRingNumber (tag : Byte) (number : Nat)
  /-- GET_RING (R147). -/
  | getRing (tag : Byte)
  /-- GET_LOG_ENTRY (R147): ring number. -/
  | getLogEntry (tag : Byte) (number : Nat)
  /-- GET_MUCK (R82). -/
  | getMuck (tag : Byte)
  /-- RESTART (R199). -/
  | restart (tag : Byte)
  /-- HOST_BYTE_RECEIVED (R193): a byte and whether its stop bit was missing. -/
  | hostByteReceived (byte : Byte) (framingError : Bool)
  /-- REQUEST_LENGTH_MISMATCH (R194): the frame at the head of the receive queue is taken; its kind is known and
  its payload length is not the kind's. -/
  | requestLengthMismatch
  deriving DecidableEq, Repr

end Sys2Proof
end

