-- ==== Sys2Proof/Decode.lean ====
section
/-! DEFINITION. Bytes on the host link: byte order, the check, and the reading of a request frame.

The opcode table gives no bits for any row, so `decodeTableWord` reads no word. The block's own decoder is
`requestOf`: the request command that a queued frame's kind and payload spell (R193, R194, R201). -/

namespace Sys2Proof

/-! ## Byte order (R201: a multi-byte field is sent high byte first) -/

/-- The number that bytes spell, high byte first (R201). -/
def bytesToNat (bs : List Byte) : Nat := bs.foldl (fun acc b => acc * 256 + b.toNat) 0

/-- The `w` bytes of a number, high byte first (R201). -/
def natToBytes : Nat → Nat → List Byte
  | 0, _ => []
  | w + 1, v => natToBytes w (v / 256) ++ [BitVec.ofNat 8 v]

/-- A signed number in `w` bytes of two's complement, high byte first (R201). -/
def intToBytes (w : Nat) (v : Int) : List Byte := natToBytes w (v % (256 ^ w : Nat)).toNat

/-- The signed value of a two-byte field in two's complement (R201). -/
def signed16 (v : Nat) : Int := if v < 32768 then v else (v : Int) - 65536

/-- The fields of a payload, given their widths in bytes, in order (R201). -/
def splitFields : List Nat → List Byte → List Nat
  | [], _ => []
  | w :: ws, bs => bytesToNat (bs.take w) :: splitFields ws (bs.drop w)

/-- The payload of fields of the given widths, in order (R201). -/
def joinFields : List Nat → List Nat → List Byte
  | w :: ws, v :: vs => natToBytes w v ++ joinFields ws vs
  | _, _ => []

/-! ## The check of R177 and R193 -/

/-- One shift of the CRC register: polynomial 0x1021, high bit first (R177). -/
def crcShift (c : BitVec 16) : BitVec 16 :=
  if c.msb then (c <<< 1) ^^^ 0x1021#16 else c <<< 1

/-- The CRC register after one byte (R177: input not reflected). -/
def crcByte (c : BitVec 16) (b : Byte) : BitVec 16 :=
  let c := c ^^^ (b.setWidth 16 <<< 8)
  crcShift (crcShift (crcShift (crcShift (crcShift (crcShift (crcShift (crcShift c)))))))

/-- The CRC-16 of R177: initial value 0xFFFF, output not reflected, final XOR 0. -/
def crc16 (bs : List Byte) : BitVec 16 := bs.foldl crcByte 0xFFFF#16

/-- The two check bytes, high byte first (R177, R193). -/
def checkBytes (bs : List Byte) : List Byte :=
  [(crc16 bs >>> 8).setWidth 8, (crc16 bs).setWidth 8]

/-- The bytes of a host frame on the line: marker, length, kind, tag, payload, check (R193). -/
def frameBytes (f : Frame) : List Byte :=
  let body := BitVec.ofNat 8 f.payload.length :: f.kind :: f.tag :: f.payload
  0xC3#8 :: body ++ checkBytes body

/-! ## Requests (section 11.4) -/

/-- The 46 fields of a profile by place. -/
def Profile.ofFields (v : Nat → Nat) : Profile :=
  { quantum := v 0, bankDensity := v 1, conditioning := v 2, fillFactor := v 3,
    rollbackLimit := v 4, holdPressure := v 5, nMin := v 6, tGroup := v 7,
    tRelease := v 8, tReseat := v 9, k := v 10, hLow := v 11,
    hHigh := v 12, hTrip := v 13, ceilingPct := v 14, throttlePct := v 15,
    zoneSpeedCap := v 16, rampRate := v 17, tStall := v 18, chamberTarget := v 19,
    deadband := v 20, kp := v 21, stepMax := v 22, chamberOver := v 23,
    crownMin := v 24, tUnder := v 25, screwMax := v 26, screwHold := v 27,
    screwStill := v 28, binHalt := v 29, binResume := v 30, excavTol := v 31,
    excavSlack := v 32, tExcav := v 33, doseStart := v 34, groutPMax := v 35,
    groutHyst := v 36, blockOwed := v 37, tIdle := v 38, tHold := v 39,
    tFlush := v 40, shortLimit := v 41, shortResume := v 42, tGshort := v 43,
    stepTimeout := v 44, tStill := v 45 }

/-- The fields of a profile in the order of section 8.2. -/
def Profile.toFields (p : Profile) : List Nat :=
  [p.quantum, p.bankDensity, p.conditioning, p.fillFactor, p.rollbackLimit, p.holdPressure,
   p.nMin, p.tGroup, p.tRelease, p.tReseat, p.k, p.hLow,
   p.hHigh, p.hTrip, p.ceilingPct, p.throttlePct, p.zoneSpeedCap, p.rampRate,
   p.tStall, p.chamberTarget, p.deadband, p.kp, p.stepMax, p.chamberOver,
   p.crownMin, p.tUnder, p.screwMax, p.screwHold, p.screwStill, p.binHalt,
   p.binResume, p.excavTol, p.excavSlack, p.tExcav, p.doseStart, p.groutPMax,
   p.groutHyst, p.blockOwed, p.tIdle, p.tHold, p.tFlush, p.shortLimit,
   p.shortResume, p.tGshort, p.stepTimeout, p.tStill]

/-- The 21 fields of the geometry record by place. -/
def Geometry.ofFields (v : Nat → Nat) : Geometry :=
  { faceArea := v 0, gapArea := v 1, ringLength := v 2, strokeMargin := v 3, segmentsPerRing := v 4,
    lineWeight := Vector.ofFn fun i => v (5 + i.val), strokeVolume := Vector.ofFn fun i => v (11 + i.val),
    beltMassPerPulse := v 17, beltTransit := v 18, ratedTorque := v 19, pairMaxPressure := v 20 }

/-- The fields of the geometry record in the order of section 8.1. -/
def Geometry.toFields (g : Geometry) : List Nat :=
  [g.faceArea, g.gapArea, g.ringLength, g.strokeMargin, g.segmentsPerRing]
    ++ g.lineWeight.toList ++ g.strokeVolume.toList
    ++ [g.beltMassPerPulse, g.beltTransit, g.ratedTorque, g.pairMaxPressure]

/-- The fields of a step entry in the order of section 6.1. -/
def StepFields.toFields (e : StepFields) : List Nat :=
  [e.kind, e.segment, e.position, e.width, e.target, e.stroke, e.timeout, e.overlap]

/-- The widths of the geometry fields: 2 bytes, but 4 for the two areas and 1 for the segment count (R201). -/
def geometryWidths : List Nat := [4, 4, 2, 2, 1] ++ List.replicate 16 2

/-- The widths of the profile fields: 2 bytes, but 4 for short_limit and short_resume (R201). -/
def profileWidths : List Nat := List.replicate 41 2 ++ [4, 4] ++ List.replicate 3 2

/-- The widths of the fields of a step entry (section 11.5). -/
def stepWidths : List Nat := [1, 1, 1, 1, 1, 2, 2, 1]

/-- The widths of the payload fields of each request kind, none for a code that names no request
(section 11.4). -/
def requestWidths : Nat → Option (List Nat)
  | 0x01 => some [1]
  | 0x02 => some geometryWidths
  | 0x03 => some []
  | 0x04 => some (1 :: profileWidths)
  | 0x05 => some [1]
  | 0x06 => some [1]
  | 0x07 => some [1]
  | 0x08 => some [1]
  | 0x09 => some []
  | 0x0A => some []
  | 0x0B => some [2, 1]
  | 0x0C => some [2, 2, 2, 2]
  | 0x0D => some [2]
  | 0x0E => some (1 :: stepWidths)
  | 0x0F => some [1]
  | 0x10 => some [1]
  | 0x11 => some []
  | 0x12 => some []
  | 0x13 => some []
  | 0x14 => some [1, 1, 1]
  | 0x15 => some [1, 1]
  | 0x16 => some [1]
  | 0x17 => some [1, 1]
  | 0x18 => some [1]
  | 0x19 => some [2]
  | 0x1A => some []
  | 0x1B => some [2]
  | 0x1C => some []
  | 0x1D => some []
  | _ => none

/-- The fixed payload length of a request kind (section 11.4). -/
def requestLength (kind : Nat) : Option Nat := (requestWidths kind).map List.sum

/-- The request command of a known kind with the given field values. -/
def buildRequest (kind : Nat) (tag : Byte) (v : Nat → Nat) : Option Instr :=
  match kind with
  | 0x01 => some (.getStatus tag (v 0))
  | 0x02 => some (.setGeometry tag (Geometry.ofFields v))
  | 0x03 => some (.getGeometry tag)
  | 0x04 => some (.writeProfile tag (v 0) (Profile.ofFields fun i => v (i + 1)))
  | 0x05 => some (.readProfile tag (v 0))
  | 0x06 => some (.selectProfile tag (v 0))
  | 0x07 => some (.setMode tag (v 0))
  | 0x08 => some (.hold tag (v 0))
  | 0x09 => some (.stop tag)
  | 0x0A => some (.ackHalt tag)
  | 0x0B => some (.cutterhead tag (v 0) (v 1))
  | 0x0C => some (.steer tag (v 0) (v 1) (v 2) (v 3))
  | 0x0D => some (.chamberTrim tag (signed16 (v 0)))
  | 0x0E => some (.writeStep tag (v 0) ⟨v 1, v 2, v 3, v 4, v 5, v 6, v 7, v 8⟩)
  | 0x0F => some (.readStep tag (v 0))
  | 0x10 => some (.buildStart tag (v 0))
  | 0x11 => some (.buildPause tag)
  | 0x12 => some (.buildResume tag)
  | 0x13 => some (.buildAbort tag)
  | 0x14 => some (.recordSegment tag (v 0) (v 1) (v 2))
  | 0x15 =>
    -- The actions in the order R96 lists them: FLUSH 0, ISOLATE 1, REINSTATE 2.
    if v 1 = 1 then some (.groutLineIsolate tag (v 0))
    else if v 1 = 2 then some (.groutLineReinstate tag (v 0))
    else some (.groutLineFlush tag (v 0) (v 1))
  | 0x16 => some (.pairReinstate tag (v 0))
  | 0x17 => some (.stationEnable tag (v 0) (v 1))
  | 0x18 => some (.setLinkTiming tag (v 0))
  | 0x19 => some (.setRingNumber tag (v 0))
  | 0x1A => some (.getRing tag)
  | 0x1B => some (.getLogEntry tag (v 0))
  | 0x1C => some (.getMuck tag)
  | 0x1D => some (.restart tag)
  | _ => none

/-- The request command a frame spells: none where its kind names no request or its payload length is not
the kind's fixed length (R194). -/
def requestOf (f : Frame) : Option Instr :=
  match requestWidths f.kind.toNat with
  | none => none
  | some ws =>
    if f.payload.length = ws.sum then
      buildRequest f.kind.toNat f.tag fun i => (splitFields ws f.payload).getD i 0
    else none

/-- The kind code, tag and field values of a request command; none for a command that is no request
(section 11.4). -/
def requestParts : Instr → Option (Nat × Byte × List Nat)
  | .getStatus t p => some (0x01, t, [p])
  | .setGeometry t g => some (0x02, t, g.toFields)
  | .getGeometry t => some (0x03, t, [])
  | .writeProfile t n p => some (0x04, t, n :: p.toFields)
  | .readProfile t n => some (0x05, t, [n])
  | .selectProfile t n => some (0x06, t, [n])
  | .setMode t m => some (0x07, t, [m])
  | .hold t w => some (0x08, t, [w])
  | .stop t => some (0x09, t, [])
  | .ackHalt t => some (0x0A, t, [])
  | .cutterhead t v d => some (0x0B, t, [v, d])
  | .steer t c r i l => some (0x0C, t, [c, r, i, l])
  | .chamberTrim t x => some (0x0D, t, [(x % 65536).toNat])
  | .writeStep t n e => some (0x0E, t, n :: e.toFields)
  | .readStep t n => some (0x0F, t, [n])
  | .buildStart t n => some (0x10, t, [n])
  | .buildPause t => some (0x11, t, [])
  | .buildResume t => some (0x12, t, [])
  | .buildAbort t => some (0x13, t, [])
  | .recordSegment t k a w => some (0x14, t, [k, a, w])
  | .groutLineFlush t l a => some (0x15, t, [l, a])
  | .groutLineIsolate t l => some (0x15, t, [l, 1])
  | .groutLineReinstate t l => some (0x15, t, [l, 2])
  | .pairReinstate t p => some (0x16, t, [p])
  | .stationEnable t a w => some (0x17, t, [a, w])
  | .setLinkTiming t w => some (0x18, t, [w])
  | .setRingNumber t n => some (0x19, t, [n])
  | .getRing t => some (0x1A, t, [])
  | .getLogEntry t n => some (0x1B, t, [n])
  | .getMuck t => some (0x1C, t, [])
  | .restart t => some (0x1D, t, [])
  | .advPPulse _ => none
  | .beltPPulse => none
  | .powerOnReset => none
  | .resetEnd => none
  | .hostFrameReceived _ => none
  | .gapTimerExpiry => none
  | .unknownRequestKind => none
  | .hostFrameSent => none
  | .commandFrameSent => none
  | .stationReply _ => none
  | .replyWindowExpiry => none
  | .groupShortTimerExpiry => none
  | .releaseTimerExpiry _ => none
  | .reseatTimerExpiry _ => none
  | .stallTimerExpiry => none
  | .underTimerExpiry => none
  | .excavTimerExpiry => none
  | .ageTimerExpiry => none
  | .idleTimerExpiry _ => none
  | .holdTimerExpiry _ => none
  | .flushTimerExpiry _ => none
  | .gshortTimerExpiry => none
  | .stepTimerExpiry => none
  | .standstillTimerExpiry => none
  | .hostByteReceived _ _ => none
  | .requestLengthMismatch => none

/-- The frame by which the host sends a request command (R193, R201); none for a command that is no
request. -/
def frameOf (i : Instr) : Option Frame :=
  match requestParts i with
  | none => none
  | some (kind, tag, fields) =>
    some { kind := BitVec.ofNat 8 kind, tag, payload := joinFields ((requestWidths kind).getD []) fields }

/-- The command that a word spells by the opcode table's bits. The table gives no bits for any of its rows,
so no word spells a command. -/
def decodeTableWord (_nbits _w : Nat) : Option Instr := none

end Sys2Proof
end

