-- ==== Sys2Proof/Machine/Types.lean ====
section
/-! DEFINITION. The types of the coordinator's state, block by block (00_scope.md, Block overview).

Each structure is one block's table of state; its fields keep the table's order. Fields that are the model's
own, and not the manual's, say so. -/

namespace Sys2Proof.Machine

/-! ## Timers -/

/-- A timer: stopped, or running with the model time, in milliseconds, at which it runs out. -/
inductive Timer where
  | stopped
  | running (expiry : Nat)
  deriving DecidableEq, Repr

/-- A timer that keeps a mark once it has run out (R26, R35, R92). -/
inductive MarkTimer where
  | stopped
  | running (expiry : Nat)
  | expired
  deriving DecidableEq, Repr

/-! ## Advance Unit -/

/-- The Advance Unit's state (chapter 1). -/
structure Adv where
  /-- S, 0 to 30,000 counts. -/
  stroke : Nat
  /-- P, 0 to 199 counts. -/
  acc : Nat
  /-- B, 0 to 2,000 counts. -/
  debt : Nat
  /-- rV, 0 to 99. -/
  remVolume : Nat
  /-- rM, 0 to 999,999. -/
  remMass : Nat
  /-- rG_0 to rG_5, 0 to 2,559,999 each. -/
  remGrout : Vector Nat 6
  /-- Step serial, 0 to 65,535, wrapping. -/
  serial : Nat
  deriving DecidableEq, Repr

/-- The step record that ADV hands on (R9). -/
structure StepRecord where
  serial : Nat
  ring : Nat
  advance : Nat
  volume : Nat
  mass : Nat
  grout : Vector Nat 6
  time : Nat
  deriving DecidableEq, Repr

/-! ## Thrust Unit -/

/-- Fault causes of a pair (section 2.1). -/
inductive PairCause where
  | stationLost | stationFault | notReported
  deriving DecidableEq, Repr

/-- Pair states (section 2.1); the fault cause is present only in FAULTED. -/
inductive PairState where
  | thrusting | releasing | withdrawn | reseating
  | faulted (cause : PairCause)
  deriving DecidableEq, Repr

/-- The station's own judgement of a pair (section 2.1). -/
inductive PairStatus where
  | ok | fault
  deriving DecidableEq, Repr

/-- A pair record (section 2.1). -/
structure Pair where
  state : PairState
  tag : Option Nat
  commanded : Nat
  lastPressure : Option Nat
  lastClear : Option Bool
  lastStatus : Option PairStatus
  deriving DecidableEq, Repr

/-- Phases of an arc in flight (section 2.3). -/
inductive ArcPhase where
  | withdrawing | withdrawn | reseating
  deriving DecidableEq, Repr

/-- An arc record (section 2.3). -/
structure Arc where
  id : Nat
  start : Nat
  width : Nat
  phase : ArcPhase
  release : Timer
  reseat : MarkTimer
  /-- Segment: none (false) or placed (true). -/
  placed : Bool
  /-- Requester: BLD (true) or none (false). -/
  byBld : Bool
  deriving DecidableEq, Repr

/-- A withdrawal request (R28). -/
structure ArcRequest where
  start : Nat
  width : Nat
  deriving DecidableEq, Repr

/-- The Thrust Unit's state (chapter 2). -/
structure Thu where
  pairs : Vector Pair 16
  /-- p_CROWN, p_RIGHT, p_INVERT, p_LEFT. -/
  setpoints : Vector Nat 4
  /-- Arcs in flight, in grant order. -/
  arcs : List Arc
  waiting : Option ArcRequest
  /-- The group-short timer; `expired` while the condition that ran it out goes on. -/
  groupTimer : MarkTimer
  deriving DecidableEq, Repr

/-- The action THU asks of a pair (R21). -/
inductive PairAction where
  | extend (pressure : Nat) | retract | isolate
  deriving DecidableEq, Repr

/-! ## Cutterhead Unit -/

/-- Directions of the cutterhead. -/
inductive Direction where
  | cw | ccw
  deriving DecidableEq, Repr

/-- Drive states (chapter 3). -/
inductive DriveState where
  | stopped | ramping | turning | reversing | stalled
  deriving DecidableEq, Repr

/-- The fields of a DRIVE report (R189). -/
structure DriveReport where
  speed : Nat
  direction : Direction
  torque : Nat
  deriving DecidableEq, Repr

/-- The Cutterhead Unit's state (chapter 3). -/
structure Chu where
  drive : DriveState
  hostSpeed : Nat
  hostDir : Direction
  applied : Nat
  direction : Direction
  rampOrigin : Nat
  rampStart : Nat
  ceiling : Nat
  /-- H, 0 to 40,000. -/
  loadIndex : Nat
  /-- L, absent or 0 to 200. -/
  loadRatio : Option Nat
  zone : Bool
  stallTimer : Timer
  /-- The trip condition, present (true) or gone, while LOAD_TRIP is in the halt-cause set. -/
  trip : Bool
  last : Option DriveReport
  deriving DecidableEq, Repr

/-! ## Face Unit -/

/-- Regulator states (R65). -/
inductive Regulator where
  | off | regulating | blind
  deriving DecidableEq, Repr

/-- A pressure with its validity flag (R61). -/
structure Reading where
  pressure : Nat
  valid : Bool
  deriving DecidableEq, Repr

/-- The fields of a BULKHEAD report (R61). -/
structure BulkheadReport where
  crown : Reading
  axis : Reading
  invert : Reading
  screw : Nat
  bin : Nat
  deriving DecidableEq, Repr

/-- Under-support states (R70). -/
inductive UnderState where
  | clear | qualifying | posted | suspended
  deriving DecidableEq, Repr

/-- Excavation states (R78). -/
inductive ExcavState where
  | normal | qualifying | posted
  deriving DecidableEq, Repr

/-- A transit entry (section 4.5); the age timer is stopped while belt_transit has no value (R74). -/
structure TransitEntry where
  serial : Nat
  ring : Nat
  mass : Nat
  time : Nat
  age : Timer
  deriving DecidableEq, Repr

/-- The Face Unit's state (chapter 4). -/
structure Fcu where
  regulator : Regulator
  /-- s, 0 to 250 screw units. -/
  screw : Nat
  /-- Gate command: OPEN (true) or CLOSED. -/
  gateOpen : Bool
  trim : Int
  last : Option BulkheadReport
  binHalt : Bool
  chamberHigh : Bool
  under : UnderState
  underTimer : Timer
  faceBlind : Bool
  /-- Transit queue, head first. -/
  transit : List TransitEntry
  /-- The weighing ring, or none. -/
  weighing : Option Nat
  due : Nat
  measured : Nat
  excav : ExcavState
  excavTimer : Timer
  underMark : Bool
  earlyReleases : Nat
  deriving DecidableEq, Repr

/-! ## Grout Unit -/

/-- Isolation causes (section 5.1). -/
inductive IsolationCause where
  | host | station
  deriving DecidableEq, Repr

/-- Line states (section 5.1); the isolation cause is present only in ISOLATED. -/
inductive LineState where
  | idle | injecting | holding | blocked | flushing
  | isolated (cause : IsolationCause)
  deriving DecidableEq, Repr

/-- A line record (section 5.1). -/
structure Line where
  state : LineState
  configured : Option Nat
  effective : Nat
  owed : Int
  accrued : Nat
  delivered : Nat
  lastPressure : Option Nat
  lastCount : Option Nat
  pumpRunning : Option Bool
  flushOpen : Option Bool
  idleTimer : Timer
  holdTimer : MarkTimer
  flushTimer : Timer
  deriving DecidableEq, Repr

/-- Shortfall states (R105). -/
inductive ShortState where
  | normal | qualifying | short
  deriving DecidableEq, Repr

/-- The fields of a GROUT report (R189). -/
structure GroutReport where
  pressure : Nat
  count : Nat
  pump : Bool
  flush : Bool
  deriving DecidableEq, Repr

/-- Pump actions (R87). -/
inductive PumpAction where
  | run | flush | stop
  deriving DecidableEq, Repr

/-- The Grout Unit's state (chapter 5). -/
structure Gru where
  lines : Vector Line 6
  pool : Int
  figuresRing : Nat
  shortfall : ShortState
  shortTimer : Timer
  nonePosted : Bool
  deriving DecidableEq, Repr

/-! ## Build Unit -/

/-- Step kinds (section 6.1). -/
inductive StepKind where
  | pick | withdraw | place | reseat | awaitStroke | call | ret | dispatch | endPlan
  deriving DecidableEq, Repr

/-- Segment kinds. -/
inductive SegKind where
  | standard | counter | key
  deriving DecidableEq, Repr

/-- A step entry of the plan table (section 6.1). -/
structure PlanStep where
  kind : StepKind
  segment : SegKind
  position : Nat
  width : Nat
  target : Nat
  stroke : Nat
  timeout : Nat
  overlap : Bool
  deriving DecidableEq, Repr

/-- Causes of a plan fault (R129), in the order of its table. -/
inductive PlanFault where
  | nothingHeld | noArc | ringFull | keyOrder | segmentHeld | erectorStopped
  | arcTimeout | releaseTimeout | arcBusy | reseatTimeout | stepTimeout
  | stackFull | stackEmpty | planRange | planLoop | buildIncomplete
  | erectorLost | aborted | modeStandby
  deriving DecidableEq, Repr

/-- Causes of a pause (R127). -/
inductive PauseCause where
  | host | halt
  deriving DecidableEq, Repr

/-- Plan states (section 6.2). -/
inductive PlanState where
  | idle | running | waiting
  | paused (cause : PauseCause)
  | complete
  | faulted (cause : PlanFault)
  deriving DecidableEq, Repr

/-- What an erector operation does (R117); a PLACE also names the plan arc it fills. -/
inductive ErectorWork where
  | pick (kind : SegKind)
  | place (kind : SegKind) (start width arc : Nat)
  deriving DecidableEq, Repr

/-- An erector operation and its number (R117). -/
structure Operation where
  number : Nat
  work : ErectorWork
  deriving DecidableEq, Repr

/-- The ERECTOR command's action (R117). -/
inductive ErectorAction where
  | hold
  | pick (kind : SegKind)
  | place (kind : SegKind) (start width : Nat)
  deriving DecidableEq, Repr

/-- The results an ERECTOR report gives (R117). -/
inductive ErectorResult where
  | pickOk | pickRejected | placed | placedOffset | placeRetry | stopped
  deriving DecidableEq, Repr

/-- The fields of an ERECTOR report (R189): the result is present when the phase is ENDED. -/
structure ErectorReport where
  number : Nat
  result : Option ErectorResult
  deriving DecidableEq, Repr

/-- The step in flight: none, or what the step at the current slot waits for (section 6.2 and R118 to
R126). The kind of the step is that of the plan table's entry, which cannot change while the plan is
active (R112). -/
inductive Flight where
  | none
  /-- PICK or PLACE with its operation under way: RUNNING. -/
  | erector (op : Operation)
  /-- PICK or PLACE waiting for the orphan operation to end: WAITING. -/
  | orphan
  /-- WITHDRAW waiting for admission: WAITING. -/
  | admission
  /-- WITHDRAW whose arc is releasing: RUNNING. -/
  | release (arc : Nat)
  /-- RESEAT waiting for the background reseat to end: WAITING. -/
  | background
  /-- RESEAT, overlap off, while its arc reseats: RUNNING. -/
  | reseat (arc : Nat)
  /-- AWAIT_STROKE: WAITING. -/
  | stroke
  /-- END while plan arcs remain: WAITING. -/
  | arcs
  deriving DecidableEq, Repr

/-- A frame of the call stack (R124). -/
structure CallFrame where
  slot : Nat
  base : Nat
  deriving DecidableEq, Repr

/-- A plan arc (chapter 6). -/
structure PlanArc where
  id : Nat
  start : Nat
  width : Nat
  phase : ArcPhase
  placed : Bool
  deriving DecidableEq, Repr

/-- THU's words to its requester (R28, R31, R32, R34, R35). -/
inductive ArcWord where
  | granted (arc start width : Nat)
  | withdrawn (arc : Nat)
  | releaseTimeout (arc : Nat)
  | reseatDone (arc : Nat)
  | reseatTimeout (arc : Nat)
  deriving DecidableEq, Repr

/-- The Build Unit's state (chapter 6). -/
structure Bld where
  table : Vector PlanStep 128
  plan : PlanState
  /-- Current slot, 0 to 127. -/
  slot : Fin 128
  flight : Flight
  stepTimer : Timer
  /-- Call stack, top first. -/
  stack : List CallFrame
  base : Nat
  held : Option SegKind
  outcome : Nat
  /-- Plan arcs, in grant order. -/
  arcs : List PlanArc
  lastPlaced : Option Nat
  background : Option Nat
  /-- Operation number, 0 to 255. -/
  opNumber : Nat
  /-- The orphan operation with what it was to do (R131 reports it). -/
  orphan : Option Operation
  loopCount : Nat
  /-- The action of the ERECTOR command; its number is `opNumber` (R117, R135). -/
  command : ErectorAction
  /-- THU's words not yet taken: the model's own, empty between commands. -/
  inbox : List ArcWord
  deriving DecidableEq, Repr

/-! ## Ring Unit -/

/-- Profile names. -/
inductive ProfileName where
  | a | b | c | d
  deriving DecidableEq, Repr

/-- Outcomes of a segment entry (section 7.1). -/
inductive SegOutcome where
  | placed | placedOffset | manual
  deriving DecidableEq, Repr

/-- A segment entry (section 7.1). -/
structure Segment where
  sequence : Nat
  kind : SegKind
  start : Nat
  width : Nat
  outcome : SegOutcome
  deriving DecidableEq, Repr

/-- A profile-change entry (section 7.1). -/
structure ProfileChange where
  serial : Nat
  profile : ProfileName
  deriving DecidableEq, Repr

/-- The six event flags of a ring record (R137). -/
structure RingFlags where
  rollbackSeen : Bool
  envelopeEntered : Bool
  groutShort : Bool
  crownSuspended : Bool
  overExcavation : Bool
  underExcavation : Bool
  deriving DecidableEq, Repr

/-- Lowest and highest axis pressure of a ring (R139). -/
structure AxisRange where
  lowest : Nat
  highest : Nat
  deriving DecidableEq, Repr

/-- The open ring record (section 7.1). -/
structure RingRecord where
  number : Nat
  stroke : Nat
  volume : Nat
  mass : Nat
  measured : Option Nat
  segments : List Segment
  profileAtOpen : ProfileName
  changes : List ProfileChange
  moreChanges : Bool
  flags : RingFlags
  axis : Option AxisRange
  buildDone : Bool
  strokeDone : Bool
  deriving DecidableEq, Repr

/-- A line's figures at close (section 7.1). -/
structure LineFigures where
  accrued : Nat
  delivered : Nat
  owed : Int
  deriving DecidableEq, Repr

/-- A settled balance (R77, R146). -/
structure Balance where
  expected : Nat
  measured : Nat
  ratio : Option Nat
  deriving DecidableEq, Repr

/-- A ring log entry: the closed record and the fields added at and after the close (section 7.1). -/
structure LogEntry where
  record : RingRecord
  strokeAtClose : Nat
  figures : Option (Vector LineFigures 6)
  settled : Option Balance
  deriving DecidableEq, Repr

/-- The Ring Unit's state (chapter 7). -/
structure Rgu where
  current : RingRecord
  /-- Ring log, oldest first. -/
  log : List LogEntry
  deriving DecidableEq, Repr

/-! ## Profile Store -/

/-- The Profile Store's state (chapter 8). -/
structure Pfs where
  /-- The geometry record, none while UNSET. -/
  geometry : Option Geometry
  profiles : Vector Profile 4
  active : ProfileName
  /-- The pending profile (R155). -/
  next : Option ProfileName
  deriving DecidableEq, Repr

/-! ## Mode Unit -/

/-- Machine modes (chapter 9). -/
inductive Mode where
  | standby | ready | boring | standstill | halted
  deriving DecidableEq, Repr

/-- Hold reasons, in the order of MDU's state table. -/
inductive HoldReason where
  | groutShort | groutNone | chamberHigh | binFull | strokeLimit | groupShort | thrustMin | hostHold
  deriving DecidableEq, Repr

/-- Halt causes, in the order of MDU's state table. -/
inductive HaltCause where
  | stall | loadTrip | rollbackLimit | driveLost | faceBlind | faceUnder | overExcavation | hostStop
  deriving DecidableEq, Repr

/-- The cause of a change of mode (R175): a request kind, a halt cause, the standstill timer, a break event
of a request kind, or a host restart. -/
inductive ModeCause where
  | request (kind : Nat)
  | halt (cause : HaltCause)
  | standstill
  | breakEvent (kind : Nat)
  | restart
  deriving DecidableEq, Repr

/-- The Mode Unit's state (chapter 9). -/
structure Mdu where
  mode : Mode
  previous : Mode
  /-- The hold-reason set: whether each reason, by its place, is a member. -/
  holds : Vector Bool 8
  /-- The halt-cause set: for each cause, by its place, none, or a member with its removable mark. -/
  halts : Vector (Option Bool) 8
  permitted : Bool
  /-- Level of ADV-PERMIT. -/
  advPermit : Bool
  /-- Level of HALT-OUT. -/
  haltOut : Bool
  driveStopped : Bool
  planBusy : Bool
  standstill : Timer
  deriving DecidableEq, Repr

/-! ## Station Link Controller -/

/-- Link states (chapter 10). -/
inductive LinkState where
  | notSeen | online | lost
  deriving DecidableEq, Repr

/-- A station record (chapter 10). Its address is one more than its index, and its role follows. -/
structure Station where
  enabled : Bool
  link : LinkState
  misses : Nat
  deriving DecidableEq, Repr

/-- Roles of the stations (00_scope.md, The field stations). -/
inductive Role where
  | drive | bulkhead | thrust (group : Fin 4) | erector | grout (line : Fin 6)
  deriving DecidableEq, Repr

/-- Visit phases (chapter 10). -/
inductive VisitPhase where
  | none | sending | listening
  deriving DecidableEq, Repr

/-- The causes a STATION_STATE notice names (R190). -/
inductive StationCause where
  | misses | reply | enable | disable
  deriving DecidableEq, Repr

/-- The Station Link Controller's state (chapter 10). -/
structure Slc where
  stations : Vector Station 13
  /-- Round position, 1 to 13. -/
  position : Nat
  phase : VisitPhase
  /-- Reply window in force, in milliseconds. -/
  window : Nat
  nextWindow : Option Nat
  /-- Level of the station link transmitter enable (R177). -/
  txEnable : Bool
  /-- The reply window timer of the visit in flight (R178). -/
  windowTimer : Timer
  /-- The characters of the command frame of the visit in flight (R178): empty while none is in flight. -/
  frame : List Char9
  /-- The characters of its reply received so far (R180). -/
  reply : List Char9
  /-- The reply of the visit in flight was malformed: its later characters are discarded (R180). -/
  discarding : Bool
  /-- The visited station was disabled during its visit: the outcome is not recorded (R186). -/
  unrecorded : Bool
  deriving DecidableEq, Repr

/-- A valid report, by role (R189). -/
inductive Report where
  | drive (r : DriveReport)
  | bulkhead (r : BulkheadReport)
  | thrust (group : Fin 4) (entries : Vector (Nat × Bool × PairStatus) 4)
  | erector (r : ErectorReport)
  | grout (line : Fin 6) (r : GroutReport)
  deriving DecidableEq, Repr

/-! ## Host Link Controller -/

/-- Receiver states (R193). -/
inductive RxState where
  | hunting | header | body
  deriving DecidableEq, Repr

/-- Results of a request (R195). -/
inductive Result where
  | accepted
  | clamped
  /-- REFUSED_STATE with the failed check and its argument. -/
  | refusedState (check argument : Nat)
  /-- REFUSED_RANGE with the first failing field and how it failed. -/
  | refusedRange (field failure : Nat)
  | refusedBusy
  | refusedUnknown
  | refusedFormat
  deriving DecidableEq, Repr

/-- The Host Link Controller's state (chapter 11). -/
structure Hlc where
  rx : RxState
  /-- Partial frame: the bytes of the frame being received, marker included. -/
  bytes : List Byte
  gapTimer : Timer
  /-- Receive queue, head first. -/
  queue : List Frame
  /-- Whether a request is in process. -/
  inProcess : Bool
  /-- Reply list, oldest first. -/
  replies : List Frame
  /-- Notice queue, oldest first. -/
  notices : List Frame
  dropped : Bool
  /-- Transmitter: idle (none) or sending a frame. -/
  sending : Option Frame
  deriving DecidableEq, Repr

end Sys2Proof.Machine
end

