-- ==== Sys2Proof/Machine/Codes.lean ====
section
/-! DEFINITION. Codes of named values and the encoding of fields into bytes (R195, R201).

R201 numbers the values of an enumerated field from 0 in the order in which the table that defines them
lists them. Readings of R201 that need an inference are in log rows 13 and 14. -/

namespace Sys2Proof.Machine

/-! ## Codes of named values -/

/-- Machine modes (chapter 9). -/
def Mode.code : Mode → Nat
  | .standby => 0 | .ready => 1 | .boring => 2 | .standstill => 3 | .halted => 4

/-- The mode of a code, none where it names no mode (R162). -/
def modeOfCode : Nat → Option Mode
  | 0 => some .standby | 1 => some .ready | 2 => some .boring | 3 => some .standstill | 4 => some .halted
  | _ => none

/-- Hold reasons by place (MDU's state table). -/
def HoldReason.index : HoldReason → Fin 8
  | .groutShort => 0 | .groutNone => 1 | .chamberHigh => 2 | .binFull => 3
  | .strokeLimit => 4 | .groupShort => 5 | .thrustMin => 6 | .hostHold => 7

/-- Halt causes by place (MDU's state table). -/
def HaltCause.index : HaltCause → Fin 8
  | .stall => 0 | .loadTrip => 1 | .rollbackLimit => 2 | .driveLost => 3
  | .faceBlind => 4 | .faceUnder => 5 | .overExcavation => 6 | .hostStop => 7

/-- Profile names by place: A 0 to D 3 (R201). -/
def ProfileName.index : ProfileName → Fin 4
  | .a => 0 | .b => 1 | .c => 2 | .d => 3

/-- The profile of a code, none for a name other than A to D (R153). -/
def profileOfCode : Nat → Option ProfileName
  | 0 => some .a | 1 => some .b | 2 => some .c | 3 => some .d | _ => none

/-- Directions: CW 0 and CCW 1 (R201). -/
def Direction.code : Direction → Nat
  | .cw => 0 | .ccw => 1

/-- The direction of a code, none for neither CW nor CCW (R43, R189). -/
def directionOfCode : Nat → Option Direction
  | 0 => some .cw | 1 => some .ccw | _ => none

/-- The switch of a code: R166 and R185 list on, then off (R201). DEDUCED, log 13. -/
def switchOfCode : Nat → Option Bool
  | 0 => some true | 1 => some false | _ => none

/-- Pair states (section 2.1). -/
def PairState.code : PairState → Nat
  | .thrusting => 0 | .releasing => 1 | .withdrawn => 2 | .reseating => 3 | .faulted _ => 4

/-- The fault cause of a pair, present only in FAULTED (section 2.1). -/
def PairState.cause : PairState → Option PairCause
  | .faulted c => some c
  | .thrusting => none | .releasing => none | .withdrawn => none | .reseating => none

/-- Fault causes of a pair (section 2.1). -/
def PairCause.code : PairCause → Nat
  | .stationLost => 0 | .stationFault => 1 | .notReported => 2

/-- Pair statuses (section 2.1). -/
def PairStatus.code : PairStatus → Nat
  | .ok => 0 | .fault => 1

/-- Arc phases (section 2.3). -/
def ArcPhase.code : ArcPhase → Nat
  | .withdrawing => 0 | .withdrawn => 1 | .reseating => 2

/-- Pair actions (R188, R21): EXTEND, RETRACT, ISOLATE. -/
def PairAction.code : PairAction → Nat
  | .extend _ => 0 | .retract => 1 | .isolate => 2

/-- The pressure sent with a pair action: present for EXTEND and sent as 0 otherwise (R188). -/
def PairAction.pressure : PairAction → Nat
  | .extend p => p | .retract => 0 | .isolate => 0

/-- Drive states (chapter 3). -/
def DriveState.code : DriveState → Nat
  | .stopped => 0 | .ramping => 1 | .turning => 2 | .reversing => 3 | .stalled => 4

/-- Regulator states (chapter 4). -/
def Regulator.code : Regulator → Nat
  | .off => 0 | .regulating => 1 | .blind => 2

/-- Gate commands: OPEN 0, CLOSED 1 (chapter 4). -/
def gateCode (isOpen : Bool) : Nat := if isOpen then 0 else 1

/-- Under-support states (chapter 4). -/
def UnderState.code : UnderState → Nat
  | .clear => 0 | .qualifying => 1 | .posted => 2 | .suspended => 3

/-- Excavation states (chapter 4). -/
def ExcavState.code : ExcavState → Nat
  | .normal => 0 | .qualifying => 1 | .posted => 2

/-- Line states (section 5.1). -/
def LineState.code : LineState → Nat
  | .idle => 0 | .injecting => 1 | .holding => 2 | .blocked => 3 | .flushing => 4 | .isolated _ => 5

/-- The isolation cause of a line, present only in ISOLATED (section 5.1). -/
def LineState.cause : LineState → Option IsolationCause
  | .isolated c => some c
  | .idle => none | .injecting => none | .holding => none | .blocked => none | .flushing => none

/-- Isolation causes (section 5.1). -/
def IsolationCause.code : IsolationCause → Nat
  | .host => 0 | .station => 1

/-- Pump actions in the order of R87's table: RUN, FLUSH, STOP. DEDUCED, log 13. -/
def PumpAction.code : PumpAction → Nat
  | .run => 0 | .flush => 1 | .stop => 2

/-- Shortfall states (chapter 5). -/
def ShortState.code : ShortState → Nat
  | .normal => 0 | .qualifying => 1 | .short => 2

/-- Hold timer values: stopped, running or expired (section 5.1). -/
def MarkTimer.code : MarkTimer → Nat
  | .stopped => 0 | .running _ => 1 | .expired => 2

/-- Step kinds (section 11.5). -/
def StepKind.code : StepKind → Nat
  | .pick => 0 | .withdraw => 1 | .place => 2 | .reseat => 3 | .awaitStroke => 4
  | .call => 5 | .ret => 6 | .dispatch => 7 | .endPlan => 8

/-- The step kind of a code (section 11.5). -/
def stepKindOfCode : Nat → Option StepKind
  | 0 => some .pick | 1 => some .withdraw | 2 => some .place | 3 => some .reseat | 4 => some .awaitStroke
  | 5 => some .call | 6 => some .ret | 7 => some .dispatch | 8 => some .endPlan | _ => none

/-- Segment kinds (section 11.5). -/
def SegKind.code : SegKind → Nat
  | .standard => 0 | .counter => 1 | .key => 2

/-- The segment kind of a code (section 11.5). -/
def segKindOfCode : Nat → Option SegKind
  | 0 => some .standard | 1 => some .counter | 2 => some .key | _ => none

/-- Segment outcomes (section 11.5). -/
def SegOutcome.code : SegOutcome → Nat
  | .placed => 0 | .placedOffset => 1 | .manual => 2

/-- Plan states (chapter 6). -/
def PlanState.code : PlanState → Nat
  | .idle => 0 | .running => 1 | .waiting => 2 | .paused _ => 3 | .complete => 4 | .faulted _ => 5

/-- Pause causes (chapter 6). -/
def PauseCause.code : PauseCause → Nat
  | .host => 0 | .halt => 1

/-- Plan fault causes in the order of R129's table. -/
def PlanFault.code : PlanFault → Nat
  | .nothingHeld => 0 | .noArc => 1 | .ringFull => 2 | .keyOrder => 3 | .segmentHeld => 4
  | .erectorStopped => 5 | .arcTimeout => 6 | .releaseTimeout => 7 | .arcBusy => 8 | .reseatTimeout => 9
  | .stepTimeout => 10 | .stackFull => 11 | .stackEmpty => 12 | .planRange => 13 | .planLoop => 14
  | .buildIncomplete => 15 | .erectorLost => 16 | .aborted => 17 | .modeStandby => 18

/-- Erector actions (R117, R188): HOLD, PICK, PLACE. -/
def ErectorAction.code : ErectorAction → Nat
  | .hold => 0 | .pick _ => 1 | .place _ _ _ => 2

/-- Erector results in the order R117 lists them. -/
def ErectorResult.code : ErectorResult → Nat
  | .pickOk => 0 | .pickRejected => 1 | .placed => 2 | .placedOffset => 3 | .placeRetry => 4 | .stopped => 5

/-- The erector result of a code, none where it names no result (R189). -/
def erectorResultOfCode : Nat → Option ErectorResult
  | 0 => some .pickOk | 1 => some .pickRejected | 2 => some .placed | 3 => some .placedOffset
  | 4 => some .placeRetry | 5 => some .stopped | _ => none

/-- Roles by address: DRIVE first, GROUT-5 last (00_scope.md). -/
def Role.code : Role → Nat
  | .drive => 0 | .bulkhead => 1 | .thrust g => 2 + g.val | .erector => 6 | .grout l => 7 + l.val

/-- Link states (chapter 10). -/
def LinkState.code : LinkState → Nat
  | .notSeen => 0 | .online => 1 | .lost => 2

/-- STATION_STATE causes, numbered in the order in which R190 names them: no table lists them. DEDUCED, log 13. -/
def StationCause.code : StationCause → Nat
  | .misses => 0 | .reply => 1 | .enable => 2 | .disable => 3

/-- Advance permission: permitted 0, withheld 1 (MDU's state table). DEDUCED, log 13. -/
def permissionCode (permitted : Bool) : Nat := if permitted then 0 else 1

/-- The byte of a MODE_CHANGED cause: free, log 9. -/
def ModeCause.byte : ModeCause → Byte
  | .request kind => Config.modeCauseByte 0 kind
  | .halt cause => Config.modeCauseByte 1 cause.index
  | .standstill => Config.modeCauseByte 2 0
  | .breakEvent kind => Config.modeCauseByte 3 kind
  | .restart => Config.modeCauseByte 4 0

/-- Kind codes of the notices (section 11.4). -/
inductive NoticeKind where
  | modeChanged | holdChanged | haltRaised | ringClosed | ringSettled | buildDone | buildFault
  | segmentUnrecorded | lineState | pairFault | stationState | envelope | excavation | sensor | profileActive
  deriving DecidableEq, Repr

/-- Kind codes of the notices (section 11.4). -/
def NoticeKind.code : NoticeKind → Byte
  | .modeChanged => 0x40#8 | .holdChanged => 0x41#8 | .haltRaised => 0x42#8 | .ringClosed => 0x43#8
  | .ringSettled => 0x44#8 | .buildDone => 0x45#8 | .buildFault => 0x46#8 | .segmentUnrecorded => 0x47#8
  | .lineState => 0x48#8 | .pairFault => 0x49#8 | .stationState => 0x4A#8 | .envelope => 0x4B#8
  | .excavation => 0x4C#8 | .sensor => 0x4D#8 | .profileActive => 0x4E#8

/-! ## Sets and flags as bytes -/

/-- The number whose bit `n` is the list's place `n` (R201). -/
def bitsToNat : List Bool → Nat
  | [] => 0
  | b :: bs => (if b then 1 else 0) + 2 * bitsToNat bs

/-- The hold-reason set as its byte (R201). -/
def holdsByte (h : Vector Bool 8) : Byte := BitVec.ofNat 8 (bitsToNat h.toList)

/-- The halt-cause set as its byte of members (R201). -/
def haltsByte (h : Vector (Option Bool) 8) : Byte := BitVec.ofNat 8 (bitsToNat (h.toList.map Option.isSome))

/-- The byte of removable marks that follows the halt-cause set (R201). -/
def marksByte (h : Vector (Option Bool) 8) : Byte := BitVec.ofNat 8 (bitsToNat (h.toList.map (· == some true)))

/-- A flag as a number: 1 when true or set (R201). -/
def flagCode (b : Bool) : Nat := if b then 1 else 0

/-- Presence bits in as few bytes as hold them, bit 0 of the first byte first (R201). -/
def packBits (bits : List Bool) : List Byte :=
  (List.range ((bits.length + 7) / 8)).map fun i => BitVec.ofNat 8 (bitsToNat ((bits.drop (8 * i)).take 8))

/-! ## Fields of replies and notices -/

/-- A field of a reply or notice: a number of `width` bytes, one that may be absent, or bytes as they
stand (R201). -/
inductive Field where
  | num (width : Nat) (value : Int)
  | opt (width : Nat) (value : Option Int)
  | raw (bytes : List Byte)
  deriving DecidableEq, Repr

/-- A one-byte field. -/
def u1 (v : Nat) : Field := .num 1 v
/-- A two-byte field. -/
def u2 (v : Nat) : Field := .num 2 v
/-- A four-byte field. -/
def u4 (v : Nat) : Field := .num 4 v
/-- A signed four-byte field. -/
def i4 (v : Int) : Field := .num 4 v
/-- A flag field. -/
def fl (b : Bool) : Field := .num 1 (flagCode b)
/-- A field of `w` bytes that may be absent. -/
def opt (w : Nat) (v : Option Nat) : Field := .opt w (v.map Int.ofNat)

/-- The presence bit of a field that may be absent (R201). -/
def Field.presence : Field → List Bool
  | .opt _ v => [v.isSome]
  | .num _ _ => []
  | .raw _ => []

/-- The bytes of a field: those of an absent field are sent as 0 (R201). -/
def Field.bytes : Field → List Byte
  | .num w v => intToBytes w v
  | .opt w v => intToBytes w (v.getD 0)
  | .raw bs => bs

/-- Fields in the order listed, with their presence bits together before them (R201). -/
def fieldBytes (fs : List Field) : List Byte :=
  packBits (fs.flatMap Field.presence) ++ fs.flatMap Field.bytes

/-- A notice frame: the notice's kind, tag 0 and the fields in the order listed (R197). -/
def noticeFrame (kind : NoticeKind) (fields : List Field) : Frame :=
  { kind := kind.code, tag := 0, payload := fieldBytes fields }

/-- The fields of HOLD_CHANGED for one reason: the reason, the set after the change and the permission after
it (R164). -/
def holdChangedFields (r : HoldReason) (holds : Vector Bool 8) (permitted : Bool) : List Field :=
  [u1 r.index, .raw [holdsByte holds], u1 (permissionCode permitted)]

/-! ## Results (R195) -/

/-- The result byte. -/
def Result.code : Result → Byte
  | .accepted => 0x00#8 | .clamped => 0x01#8 | .refusedState _ _ => 0x10#8 | .refusedRange _ _ => 0x11#8
  | .refusedBusy => 0x12#8 | .refusedUnknown => 0x13#8 | .refusedFormat => 0x14#8

/-- The detail of a refusal: two bytes for REFUSED_STATE and REFUSED_RANGE, none otherwise (R195). -/
def Result.detail : Result → List Byte
  | .refusedState check argument => [BitVec.ofNat 8 check, BitVec.ofNat 8 argument]
  | .refusedRange field failure => [BitVec.ofNat 8 field, BitVec.ofNat 8 failure]
  | .accepted => [] | .clamped => [] | .refusedBusy => [] | .refusedUnknown => [] | .refusedFormat => []

/-- A reply frame: the request's kind with 0x80 added, its tag, the result and then the data (R195). -/
def replyFrame (kind tag : Byte) (r : Result) (data : List Byte) : Frame :=
  { kind := kind + 0x80#8, tag, payload := r.code :: (r.detail ++ data) }

end Sys2Proof.Machine
end

