-- ==== Sys2Proof/Machine/Operands.lean ====
section
/-! DEFINITION. The checks of request operands: ranges and relations of the geometry record, the profiles and
the step entries (R112, R151, R153, sections 6.1, 8.1 and 8.2).

The own range of a field whose range column names another field is the widest that column allows; worked
example 8.1 shows it for bin_resume. DEDUCED for the others, log 15. -/

namespace Sys2Proof.Machine

/-- A field with its own range, and its relation to earlier fields with the failure code R195 gives it. -/
structure FieldCheck where
  value : Nat
  low : Nat
  high : Nat
  related : Bool := true
  failure : Nat := 1
  deriving DecidableEq, Repr

/-- The first failing field by number, counting from `n`, and how it failed: 0 for its own range, else the
failure of its relation (R195). -/
def firstFailure (n : Nat) : List FieldCheck → Option (Nat × Nat)
  | [] => none
  | c :: cs =>
    if c.value < c.low || c.high < c.value then some (n, 0)
    else if !c.related then some (n, c.failure)
    else firstFailure (n + 1) cs

/-- The checks of the geometry record, in the order of section 8.1; the sum of the weights is checked at
line_weight[5] (R151). -/
def geometryChecks (g : Geometry) : List FieldCheck :=
  [{ value := g.faceArea, low := 100000, high := 1200000 },
   { value := g.gapArea, low := 1000, high := 120000 },
   { value := g.ringLength, low := 8000, high := 22000 },
   { value := g.strokeMargin, low := 200, high := 3000 },
   { value := g.segmentsPerRing, low := 5, high := 9 },
   { value := g.lineWeight[0], low := 0, high := 256 },
   { value := g.lineWeight[1], low := 0, high := 256 },
   { value := g.lineWeight[2], low := 0, high := 256 },
   { value := g.lineWeight[3], low := 0, high := 256 },
   { value := g.lineWeight[4], low := 0, high := 256 },
   { value := g.lineWeight[5], low := 0, high := 256, related := g.lineWeight.toList.sum == 256, failure := 2 },
   { value := g.strokeVolume[0], low := 100, high := 5000 },
   { value := g.strokeVolume[1], low := 100, high := 5000 },
   { value := g.strokeVolume[2], low := 100, high := 5000 },
   { value := g.strokeVolume[3], low := 100, high := 5000 },
   { value := g.strokeVolume[4], low := 100, high := 5000 },
   { value := g.strokeVolume[5], low := 100, high := 5000 },
   { value := g.beltMassPerPulse, low := 100, high := 20000 },
   { value := g.beltTransit, low := 10, high := 900 },
   { value := g.ratedTorque, low := 1000, high := 40000 },
   { value := g.pairMaxPressure, low := 10000, high := 45000 }]

/-- The first failing field of a geometry record (R151). -/
def geometryFailure (g : Geometry) : Option (Nat × Nat) := firstFailure 1 (geometryChecks g)

/-- The checks of a profile, in the order of section 8.2 (R153). -/
def profileChecks (p : Profile) : List FieldCheck :=
  [{ value := p.quantum, low := 10, high := 200 },
   { value := p.bankDensity, low := 1200, high := 2800 },
   { value := p.conditioning, low := 0, high := 500 },
   { value := p.fillFactor, low := 100, high := 250 },
   { value := p.rollbackLimit, low := 50, high := 2000 },
   { value := p.holdPressure, low := 1000, high := 10000 },
   { value := p.nMin, low := 8, high := 14 },
   { value := p.tGroup, low := 1, high := 60 },
   { value := p.tRelease, low := 2, high := 60 },
   { value := p.tReseat, low := 2, high := 60 },
   { value := p.k, low := 16, high := 4096 },
   { value := p.hLow, low := 0, high := 40000 },
   { value := p.hHigh, low := 0, high := 40000, related := decide (p.hLow < p.hHigh) },
   { value := p.hTrip, low := 0, high := 40000, related := decide (p.hHigh < p.hTrip) },
   { value := p.ceilingPct, low := 50, high := 150 },
   { value := p.throttlePct, low := 50, high := 150, related := decide (p.throttlePct ≤ p.ceilingPct) },
   { value := p.zoneSpeedCap, low := 0, high := 600 },
   { value := p.rampRate, low := 1, high := 50 },
   { value := p.tStall, low := 1, high := 30 },
   { value := p.chamberTarget, low := 50, high := 800 },
   { value := p.deadband, low := 2, high := 50 },
   { value := p.kp, low := 1, high := 500 },
   { value := p.stepMax, low := 1, high := 50 },
   { value := p.chamberOver, low := 10, high := 200 },
   { value := p.crownMin, low := 20, high := 700 },
   { value := p.tUnder, low := 1, high := 60 },
   { value := p.screwMax, low := 10, high := 250 },
   { value := p.screwHold, low := 0, high := 250, related := decide (p.screwHold ≤ p.screwMax) },
   { value := p.screwStill, low := 0, high := 250, related := decide (p.screwStill ≤ p.screwMax) },
   { value := p.binHalt, low := 50, high := 100 },
   { value := p.binResume, low := 10, high := 100, related := decide (p.binResume + 5 ≤ p.binHalt) },
   { value := p.excavTol, low := 10, high := 300 },
   { value := p.excavSlack, low := 0, high := 50000 },
   { value := p.tExcav, low := 10, high := 900 },
   { value := p.doseStart, low := 100, high := 50000 },
   { value := p.groutPMax, low := 100, high := 1500 },
   { value := p.groutHyst, low := 10, high := 300, related := decide (p.groutHyst < p.groutPMax) },
   { value := p.blockOwed, low := 500, high := 50000 },
   { value := p.tIdle, low := 5, high := 300 },
   { value := p.tHold, low := 10, high := 600 },
   { value := p.tFlush, low := 10, high := 600 },
   { value := p.shortLimit, low := 1000, high := 500000 },
   { value := p.shortResume, low := 1000, high := 500000, related := decide (p.shortResume < p.shortLimit) },
   { value := p.tGshort, low := 5, high := 600 },
   { value := p.stepTimeout, low := 1, high := 600 },
   { value := p.tStill, low := 10, high := 3600 }]

/-- The first failing field of a profile (R153). -/
def profileFailure (p : Profile) : Option (Nat × Nat) := firstFailure 1 (profileChecks p)

/-- The checks of a step entry, in the order of section 6.1; the slot is the first field of WRITE_STEP, so
the entry's fields are numbered from 2 (R112, R195). -/
def stepChecks (e : StepFields) : List FieldCheck :=
  [{ value := e.kind, low := 0, high := 8 },
   { value := e.segment, low := 0, high := 2 },
   { value := e.position, low := 0, high := 15 },
   { value := e.width, low := 1, high := 6 },
   { value := e.target, low := 0, high := 127 },
   { value := e.stroke, low := 0, high := 30000 },
   { value := e.timeout, low := 0, high := 600 },
   { value := e.overlap, low := 0, high := 1 }]

/-- The first failing field of a step entry (R112). -/
def stepFailure (e : StepFields) : Option (Nat × Nat) := firstFailure 2 (stepChecks e)

/-- The step entry that checked fields spell. -/
def stepOfFields (e : StepFields) : PlanStep :=
  { kind := (stepKindOfCode e.kind).getD .endPlan, segment := (segKindOfCode e.segment).getD .standard,
    position := e.position, width := e.width, target := e.target, stroke := e.stroke, timeout := e.timeout,
    overlap := e.overlap == 1 }

/-- A step entry as its 10 bytes (section 11.5). -/
def stepBytes (p : PlanStep) : List Field :=
  [u1 p.kind.code, u1 p.segment.code, u1 p.position, u1 p.width, u1 p.target, u2 p.stroke, u2 p.timeout,
   fl p.overlap]

end Sys2Proof.Machine
end

