-- ==== Sys2Proof/Machine/ResetValues.lean ====
section
/-! DEFINITION. The value of every piece of state after power-on reset, block by block (R19, R40, R59, R83,
R110, R135, R149, R161, R176, R191, R200). -/

namespace Sys2Proof.Machine

/-- R19. -/
def Adv.reset : Adv :=
  { stroke := 0, acc := 0, debt := 0, remVolume := 0, remMass := 0, remGrout := Vector.replicate 6 0, serial := 0 }

/-- A pair after reset: FAULTED(NOT_REPORTED), no tag, commanded 0, nothing reported (R40). -/
def Pair.reset : Pair :=
  { state := .faulted .notReported, tag := none, commanded := 0,
    lastPressure := none, lastClear := none, lastStatus := none }

/-- R40. -/
def Thu.reset : Thu :=
  { pairs := Vector.replicate 16 Pair.reset, setpoints := Vector.replicate 4 0, arcs := [], waiting := none,
    groupTimer := .stopped }

/-- R59. The ramp's origin and start time are given no value: 0, DESIGN CHOICE, log 6. The trip condition is
gone: LOAD_TRIP is not in the set. -/
def Chu.reset : Chu :=
  { drive := .stopped, hostSpeed := 0, hostDir := .cw, applied := 0, direction := .cw, rampOrigin := 0,
    rampStart := 0, ceiling := 0, loadIndex := 0, loadRatio := none, zone := false, stallTimer := .stopped,
    trip := false, last := none }

/-- R83: the face-blind flag is set, since the BULKHEAD station is NOT_SEEN. -/
def Fcu.reset : Fcu :=
  { regulator := .off, screw := 0, gateOpen := false, trim := 0, last := none, binHalt := false,
    chamberHigh := false, under := .clear, underTimer := .stopped, faceBlind := true, transit := [],
    weighing := none, due := 0, measured := 0, excav := .normal, excavTimer := .stopped, underMark := false,
    earlyReleases := 0 }

/-- A grout line after reset: ISOLATED(STATION), its weight UNSET and 0 (R110). -/
def Line.reset : Line :=
  { state := .isolated .station, configured := none, effective := 0, owed := 0, accrued := 0, delivered := 0,
    lastPressure := none, lastCount := none, pumpRunning := none, flushOpen := none,
    idleTimer := .stopped, holdTimer := .stopped, flushTimer := .stopped }

/-- R110: no line is in service, so GROUT_NONE is posted. -/
def Gru.reset : Gru :=
  { lines := Vector.replicate 6 Line.reset, pool := 0, figuresRing := 1, shortfall := .normal,
    shortTimer := .stopped, nonePosted := true }

/-- A step entry with the default fields (section 6.1). -/
def PlanStep.default : PlanStep :=
  { kind := .endPlan, segment := .standard, position := 0, width := 1, target := 0, stroke := 0, timeout := 0,
    overlap := false }

/-- R135. The loop count is given no value: 0, DESIGN CHOICE, log 6. -/
def Bld.reset : Bld :=
  { table := Vector.replicate 128 PlanStep.default, plan := .idle, slot := 0, flight := .none,
    stepTimer := .stopped, stack := [], base := 0, held := none, outcome := 0, arcs := [], lastPlaced := none,
    background := none, opNumber := 0, orphan := none, loopCount := 0, command := .hold, inbox := [] }

/-- All six event flags clear (R137). -/
def RingFlags.none : RingFlags :=
  { rollbackSeen := false, envelopeEntered := false, groutShort := false, crownSuspended := false,
    overExcavation := false, underExcavation := false }

/-- A new record with the given number, stroke and profile at open (R143, R148, R149). -/
def RingRecord.opened (number stroke : Nat) (profile : ProfileName) : RingRecord :=
  { number, stroke, volume := 0, mass := 0, measured := none, segments := [], profileAtOpen := profile,
    changes := [], moreChanges := false, flags := RingFlags.none, axis := none, buildDone := false,
    strokeDone := false }

/-- R149: open ring 1 with a stroke of 0 and profile A. -/
def Rgu.reset : Rgu := { current := RingRecord.opened 1 0 .a, log := [] }

/-- The default fields of a profile (section 8.2). -/
def Profile.default : Profile :=
  { quantum := 50, bankDensity := 2000, conditioning := 100, fillFactor := 120, rollbackLimit := 500,
    holdPressure := 3000, nMin := 10, tGroup := 10, tRelease := 20, tReseat := 20,
    k := 512, hLow := 9000, hHigh := 12100, hTrip := 16900, ceilingPct := 110, throttlePct := 90,
    zoneSpeedCap := 150, rampRate := 10, tStall := 5,
    chamberTarget := 250, deadband := 10, kp := 40, stepMax := 10, chamberOver := 60, crownMin := 150,
    tUnder := 5, screwMax := 200, screwHold := 30, screwStill := 20, binHalt := 85, binResume := 60,
    excavTol := 80, excavSlack := 5000, tExcav := 60,
    doseStart := 2000, groutPMax := 450, groutHyst := 50, blockOwed := 4000, tIdle := 30, tHold := 90,
    tFlush := 120, shortLimit := 60000, shortResume := 30000, tGshort := 60,
    stepTimeout := 120, tStill := 300 }

/-- R161. -/
def Pfs.reset : Pfs :=
  { geometry := none, profiles := Vector.replicate 4 Profile.default, active := .a, next := none }

/-- The hold-reason set after reset: GROUT_NONE, which GRU posts at power-on (R110, R176). -/
def resetHolds : Vector Bool 8 := (Vector.replicate 8 false).set HoldReason.groutNone.index true

/-- R176. -/
def Mdu.reset : Mdu :=
  { mode := .standby, previous := .standby, holds := resetHolds, halts := Vector.replicate 8 none,
    permitted := false, advPermit := false, haltOut := false, driveStopped := true, planBusy := false,
    standstill := .stopped }

/-- R191. -/
def Slc.reset : Slc :=
  { stations := Vector.replicate 13 { enabled := true, link := .notSeen, misses := 0 }, position := 1,
    phase := .none, window := 8, nextWindow := none, txEnable := false, windowTimer := .stopped, frame := [],
    reply := [], discarding := false, unrecorded := false }

/-- R200, with the HOLD_CHANGED notice that the posting of GROUT_NONE at power-on raises (R164, R176): it is
queued and sent in the usual way. -/
def Hlc.reset : Hlc :=
  { rx := .hunting, bytes := [], gapTimer := .stopped, queue := [], inProcess := false, replies := [],
    notices := [noticeFrame .holdChanged (holdChangedFields .groutNone resetHolds false)],
    dropped := false, sending := none }

end Sys2Proof.Machine
end

