-- ==== Sys2Proof/Machine/State.lean ====
section
/-! DEFINITION. The state of the coordinator as plain data, and the machine right after reset. -/

namespace Sys2Proof.Machine

/-- Why a step stops with a fault. No command of this block stops: the manual gives every one of them an
effect, and an event that cannot arise leaves the state as it is (log 2). -/
inductive Fault where
  deriving DecidableEq, Repr

/-- Why a step refuses a command. -/
inductive Refusal where
  /-- Raised by the dispatch for a command that has no meaning yet; safe, since nothing is claimed of the
  hardware. No arm raises it. -/
  | notModelled (mnemonic : String)
  deriving DecidableEq, Repr

/-- The state: the eleven blocks of 00_scope.md, the level of RESET-N, and the model's clock and queue. -/
structure State where
  adv : Adv
  thu : Thu
  chu : Chu
  fcu : Fcu
  gru : Gru
  bld : Bld
  rgu : Rgu
  pfs : Pfs
  mdu : Mdu
  slc : Slc
  hlc : Hlc
  /-- RESET-N is asserted (R1, R73, R165, R177, R193, R196). -/
  resetHeld : Bool
  /-- The model's clock in milliseconds: the model's own (log 3). -/
  now : Nat
  /-- The commands that wait, first in, first out: the model's own (log 1). -/
  pending : List Instr
  deriving DecidableEq, Repr

/-- The machine right after reset: every block at its reset values, RESET-N released, the station round not
yet begun (RESET_END begins it), no command waiting. -/
def State.reset : State :=
  { adv := Adv.reset, thu := Thu.reset, chu := Chu.reset, fcu := Fcu.reset, gru := Gru.reset, bld := Bld.reset,
    rgu := Rgu.reset, pfs := Pfs.reset, mdu := Mdu.reset, slc := Slc.reset, hlc := Hlc.reset,
    resetHeld := false, now := 0, pending := [] }

end Sys2Proof.Machine
end

