-- ==== Sys2Proof/Machine/Ops.lean ====
section
/-! DEFINITION. The operations every block shares: settings in force, timers, notices and replies, the pair
pressures, the hold-reason set with the advance permission, and the standstill timer.

A block has no exception entry. What stands in its place, raising a notice, a hold reason or an output, is
here. -/

namespace Sys2Proof.Machine

/-! ## One block's part of the state -/

/-- Change ADV's part. -/
def State.onAdv (f : Adv → Adv) (s : State) : State := { s with adv := f s.adv }
/-- Change THU's part. -/
def State.onThu (f : Thu → Thu) (s : State) : State := { s with thu := f s.thu }
/-- Change CHU's part. -/
def State.onChu (f : Chu → Chu) (s : State) : State := { s with chu := f s.chu }
/-- Change FCU's part. -/
def State.onFcu (f : Fcu → Fcu) (s : State) : State := { s with fcu := f s.fcu }
/-- Change GRU's part. -/
def State.onGru (f : Gru → Gru) (s : State) : State := { s with gru := f s.gru }
/-- Change BLD's part. -/
def State.onBld (f : Bld → Bld) (s : State) : State := { s with bld := f s.bld }
/-- Change RGU's part. -/
def State.onRgu (f : Rgu → Rgu) (s : State) : State := { s with rgu := f s.rgu }
/-- Change PFS's part. -/
def State.onPfs (f : Pfs → Pfs) (s : State) : State := { s with pfs := f s.pfs }
/-- Change MDU's part. -/
def State.onMdu (f : Mdu → Mdu) (s : State) : State := { s with mdu := f s.mdu }
/-- Change SLC's part. -/
def State.onSlc (f : Slc → Slc) (s : State) : State := { s with slc := f s.slc }
/-- Change HLC's part. -/
def State.onHlc (f : Hlc → Hlc) (s : State) : State := { s with hlc := f s.hlc }

/-! ## Vectors -/

/-- Change one element. -/
def vmod {α : Type} {n : Nat} (v : Vector α n) (i : Fin n) (f : α → α) : Vector α n := v.set i (f v[i])

/-- All lines, in ascending index. -/
def allLines : List (Fin 6) := [0, 1, 2, 3, 4, 5]

/-- All pairs, in ascending index. -/
def allPairs : List (Fin 16) := [0, 1, 2, 3, 4, 5, 6, 7, 8, 9, 10, 11, 12, 13, 14, 15]

/-- All thrust groups: CROWN, RIGHT, INVERT, LEFT. -/
def allGroups : List (Fin 4) := [0, 1, 2, 3]

/-! ## Settings in force -/

/-- The active profile (section 8.3). -/
def State.profile (s : State) : Profile := s.pfs.profiles[s.pfs.active.index]

/-- The geometry record, none while UNSET (R150). -/
def State.geometry (s : State) : Option Geometry := s.pfs.geometry

/-- A station is ONLINE for every rule that asks for it: its link state is ONLINE and it is enabled (R185). -/
def Station.online (t : Station) : Bool := t.enabled && t.link == .online

/-- The station at an address, 1 to 13, is ONLINE. -/
def State.online (s : State) (address : Nat) : Bool :=
  if h : address - 1 < 13 then (s.slc.stations[address - 1]).online else false

/-- The lowest critical station, addresses 1 to 7, that is not ONLINE (R162). -/
def State.criticalOffline (s : State) : Option Nat := [1, 2, 3, 4, 5, 6, 7].find? fun a => !s.online a

/-! ## Timers -/

/-- A timer started now to run for this many seconds. -/
def State.after (s : State) (seconds : Nat) : Timer := .running (s.now + seconds * Config.millis)

/-- A marked timer started now to run for this many seconds. -/
def State.markAfter (s : State) (seconds : Nat) : MarkTimer := .running (s.now + seconds * Config.millis)

/-- Whether a timer is running. -/
def Timer.isRunning : Timer → Bool
  | .running _ => true
  | .stopped => false

/-- Whether a marked timer is running. -/
def MarkTimer.isRunning : MarkTimer → Bool
  | .running _ => true
  | .stopped => false
  | .expired => false

/-- The clock at the expiry of a timer: the expiry is the moment at which the timer runs out (log 3). -/
def State.atExpiry (expiry : Nat) (s : State) : State := { s with now := max s.now expiry }

/-! ## Notices, replies and the transmitter -/

/-- Raise a notice: at a full queue the oldest is dropped first and the flag set (R197). -/
def notify (kind : NoticeKind) (fields : List Field) (s : State) : State :=
  s.onHlc fun h =>
    if h.notices.length < Config.noticeCapacity then
      { h with notices := h.notices ++ [noticeFrame kind fields] }
    else
      { h with notices := h.notices.drop 1 ++ [noticeFrame kind fields], dropped := true }

/-- Append a reply to the reply list; the request is no longer in process (R194, R195). -/
def reply (kind : Nat) (tag : Byte) (r : Result) (data : List Field) (s : State) : State :=
  s.onHlc fun h =>
    { h with replies := h.replies ++ [replyFrame (BitVec.ofNat 8 kind) tag r (fieldBytes data)],
             inProcess := false }

/-- An idle transmitter takes the oldest reply, or else the oldest notice (R196); while RESET-N is asserted it
stays idle. Made once at the end of each command (log 7). -/
def pump (s : State) : State :=
  if s.resetHeld then s
  else
    match s.hlc.sending, s.hlc.replies, s.hlc.notices with
    | none, r :: rs, _ => s.onHlc fun h => { h with sending := some r, replies := rs }
    | none, [], n :: ns => s.onHlc fun h => { h with sending := some n, notices := ns }
    | none, [], [] => s
    | some _, _, _ => s

/-- A command ends: the transmitter is looked at once, and the state is the next one. -/
def finish (s : State) : Host.Outcome State Fault Refusal := .next (pump s)

/-! ## Thrust groups and pair pressures (R24, R25) -/

/-- The group of a pair: CROWN 14, 15, 0, 1; RIGHT 2 to 5; INVERT 6 to 9; LEFT 10 to 13 (00_scope.md). -/
def groupOf (i : Fin 16) : Fin 4 := ⟨(i.val + 2) % 16 / 4, by omega⟩

/-- The number of THRUSTING pairs. -/
def thrustingCount (t : Thu) : Nat := (allPairs.filter fun i => t.pairs[i].state == .thrusting).length

/-- The number n of THRUSTING pairs of a group (R24). -/
def groupCount (t : Thu) (g : Fin 4) : Nat :=
  (allPairs.filter fun i => groupOf i == g && t.pairs[i].state == .thrusting).length

/-- The demand of a group: ceil(p_g × 4 / n), none for a group with no THRUSTING pair (R24). -/
def groupDemand (t : Thu) (g : Fin 4) : Option Nat :=
  let n := groupCount t g
  if n = 0 then none else some ((t.setpoints[g] * 4 + (n - 1)) / n)

/-- The compensated pressure of a group's THRUSTING pairs: its demand clamped to pair_max_pressure (R24). -/
def compensated (s : State) (g : Fin 4) : Nat :=
  match s.geometry with
  | some geo => min geo.pairMaxPressure ((groupDemand s.thu g).getD 0)
  | none => (groupDemand s.thu g).getD 0

/-- The commanded pressure of a pair: compensated or hold_pressure in THRUSTING (R24, R25), hold_pressure in
RESEATING (R21, R25), the last value given otherwise (R21). -/
def commandOf (s : State) (i : Fin 16) (p : Pair) : Nat :=
  match p.state with
  | .thrusting => if s.mdu.permitted then compensated s (groupOf i) else s.profile.holdPressure
  | .reseating => s.profile.holdPressure
  | .releasing => p.commanded
  | .withdrawn => p.commanded
  | .faulted _ => p.commanded

/-- THU forms the commanded pressures anew (R21, R24, R25). -/
def commandPairs (s : State) : State :=
  s.onThu fun t => { t with pairs := Vector.ofFn fun i => { t.pairs[i] with commanded := commandOf s i t.pairs[i] } }

/-! ## Holds and the advance permission (R164, R165) -/

/-- The hold-reason set is empty. -/
def holdsEmpty (h : Vector Bool 8) : Bool := h == Vector.replicate 8 false

/-- Advance is permitted while the mode is BORING and the hold-reason set is empty (R165). -/
def advanceAllowed (m : Mdu) : Bool := m.mode == .boring && holdsEmpty m.holds

/-- MDU decides the permission anew: at a change it sets ADV-PERMIT and tells THU, which commands the pairs
(R165, R24, R25). -/
def decidePermission (s : State) : State :=
  if advanceAllowed s.mdu = s.mdu.permitted then s
  else
    commandPairs (s.onMdu fun m => { m with permitted := advanceAllowed m, advPermit := advanceAllowed m })

/-- A change of one member of the hold-reason set, with its notice (R164). -/
def changeHold (r : HoldReason) (member : Bool) (s : State) : State :=
  if s.mdu.holds[r.index] = member then s
  else
    let s := decidePermission (s.onMdu fun m => { m with holds := m.holds.set r.index member })
    notify .holdChanged (holdChangedFields r s.mdu.holds s.mdu.permitted) s

/-- A unit posts a hold reason: a posting of a member leaves the set as it was (R164). -/
def postHold (r : HoldReason) (s : State) : State := changeHold r true s

/-- A unit withdraws a hold reason: a withdrawal of a reason that is no member leaves the set as it was
(R164). -/
def withdrawHold (r : HoldReason) (s : State) : State := changeHold r false s

/-- A hold reason follows its condition: posted while it holds, withdrawn otherwise. -/
def followHold (r : HoldReason) (condition : Bool) (s : State) : State := changeHold r condition s

/-! ## The halt-cause set (R167 to R169) -/

/-- The cause is a member of the halt-cause set. -/
def haltMember (m : Mdu) (c : HaltCause) : Bool := (m.halts[c.index]).isSome

/-- The halt-cause set is empty. -/
def haltsEmpty (h : Vector (Option Bool) 8) : Bool := h == Vector.replicate 8 none

/-- An owner reports on its cause's condition: the mark of a member changes, and nothing else (R168). -/
def markHalt (c : HaltCause) (removable : Bool) (s : State) : State :=
  if haltMember s.mdu c then s.onMdu fun m => { m with halts := m.halts.set c.index (some removable) } else s

/-- An owner withdraws a condition-bound cause: it leaves the set and the mode stays (R169). -/
def withdrawHalt (c : HaltCause) (s : State) : State :=
  s.onMdu fun m => { m with halts := m.halts.set c.index none }

/-! ## The standstill timer (R172) -/

/-- The three conditions under which the standstill timer runs (R172). -/
def standstillConditions (m : Mdu) : Bool := m.mode == .boring && m.driveStopped && !m.planBusy

/-- MDU evaluates the standstill timer: started when the conditions come to hold, cancelled when one ceases
(R172). -/
def evalStandstill (s : State) : State :=
  if standstillConditions s.mdu then
    match s.mdu.standstill with
    | .stopped => s.onMdu fun m => { m with standstill := s.after s.profile.tStill }
    | .running _ => s
  else s.onMdu fun m => { m with standstill := .stopped }

/-- CHU tells MDU whether the drive is STOPPED (R45). -/
def tellDrive (isStopped : Bool) (s : State) : State :=
  if s.mdu.driveStopped = isStopped then s
  else evalStandstill (s.onMdu fun m => { m with driveStopped := isStopped })

/-- BLD tells MDU whether the plan is RUNNING or WAITING (R113). -/
def tellPlan (busy : Bool) (s : State) : State :=
  if s.mdu.planBusy = busy then s
  else evalStandstill (s.onMdu fun m => { m with planBusy := busy })

/-- A credited pulse starts a running standstill timer again with the full T_still (R4, R172). -/
def creditStandstill (s : State) : State :=
  match s.mdu.standstill with
  | .running _ => s.onMdu fun m => { m with standstill := s.after s.profile.tStill }
  | .stopped => s

end Sys2Proof.Machine
end

