-- ==== Sys2Proof/Machine/Flags.lean ====
section
/-! DEFINITION. The conditions and flags that the blocks watch: relations between current values
(00_scope.md, Conditions, holds and halts). Each is computed here once, from the state. -/

namespace Sys2Proof.Machine

/-! ## Thrust -/

/-- A group is short: it has a THRUSTING pair and its demand is above pair_max_pressure (R26). With no
geometry there is no pair_max_pressure to be above. -/
def groupShort (s : State) (g : Fin 4) : Bool :=
  match s.geometry, groupDemand s.thu g with
  | some geo, some d => decide (geo.pairMaxPressure < d)
  | some _, none => false
  | none, _ => false

/-- The group-short condition: at least one group is short (R26). -/
def anyGroupShort (s : State) : Bool := allGroups.any fun g => groupShort s g

/-- The THRUST_MIN condition: fewer than N_min THRUSTING pairs, or a group with none (R27). -/
def thrustMin (s : State) : Bool :=
  decide (thrustingCount s.thu < s.profile.nMin) || allGroups.any fun g => groupCount s.thu g == 0

/-- A pair belongs to an arc: (i − s) mod 16 is less than k (R28). -/
def arcSelects (start width : Nat) (i : Fin 16) : Bool := decide ((i.val + 16 - start % 16) % 16 < width)

/-- A reported pair is pressed: at or above hold_pressure and not clear (R22). -/
def pressed (hold pressure : Nat) (isClear : Bool) : Bool := decide (hold ≤ pressure) && !isClear

/-! ## Cutterhead -/

/-- The speed side and torque side of the stall condition (R55). -/
def stallCondition (c : Chu) : Bool :=
  match c.last with
  | some r => decide (0 < c.applied) && decide (c.ceiling * 95 ≤ r.torque * 100) && decide (r.speed * 100 < c.applied * 10)
  | none => false

/-- A report reaches the applied target (R48). -/
def reachesTarget (c : Chu) (r : DriveReport) : Bool :=
  if c.applied = 0 then r.speed == 0
  else r.direction == c.direction && decide (((r.speed : Int) - c.applied).natAbs * 100 ≤ c.applied * 2)

/-! ## Face -/

/-- The set point: chamber_target + trim (R64). -/
def setPoint (s : State) : Int := s.profile.chamberTarget + s.fcu.trim

/-- The cap on the screw command (R67). -/
def screwCap (s : State) : Nat :=
  let p := s.profile
  match s.fcu.binHalt, s.mdu.mode == .standstill with
  | false, false => p.screwMax
  | true, false => p.screwHold
  | false, true => p.screwStill
  | true, true => min p.screwHold p.screwStill

/-- The under-support condition: the last report shows the crown pressure valid and below crown_min (R70). -/
def underSupport (s : State) : Bool :=
  match s.fcu.last with
  | some r => r.crown.valid && decide (r.crown.pressure < s.profile.crownMin)
  | none => false

/-- The under-support state is QUALIFYING or POSTED. -/
def UnderState.standing : UnderState → Bool
  | .qualifying => true | .posted => true
  | .clear => false | .suspended => false

/-- The screw is held at 0 under R70: the condition holds, or its state stands as R72 has it kept (log 28). -/
def underHeld (s : State) : Bool := underSupport s || s.fcu.under.standing

/-- FCU's tests of a trim change and of an activation are made: the BULKHEAD station is ONLINE (the link state of a
disabled station never is), or they are made also while it is not. R63, R64, R69 and R70 make them, R72 has the flags
and the under-support state stay: a free value decides (log 28). -/
def retested (s : State) : Bool := s.slc.stations[(1 : Fin 13)].link == .online || Config.testsWhileLost

/-- The ratio of measured to due in per mille, saturating at 9,999; absent when the due mass is 0 (R77). -/
def massRatio (measured due : Nat) : Option Nat :=
  if due = 0 then none else some (min 9999 (measured * 1000 / due))

/-- The over-excavation condition (R78). -/
def overExcavated (s : State) : Bool :=
  decide (s.fcu.due * (1000 + s.profile.excavTol) + s.profile.excavSlack * 1000000 < s.fcu.measured * 1000)

/-- The under-excavation condition (R79), formed exactly: the right side may be below 0. -/
def underExcavated (s : State) : Bool :=
  decide ((s.fcu.measured : Int) * 1000
    < (s.fcu.due : Int) * (1000 - s.profile.excavTol) - (s.profile.excavSlack : Int) * 1000000)

/-! ## Grout -/

/-- A line is in service: IDLE, INJECTING or HOLDING (section 5.1). -/
def LineState.inService : LineState → Bool
  | .idle => true | .injecting => true | .holding => true
  | .blocked => false | .flushing => false | .isolated _ => false

/-- A line of the Grout Unit is in service. -/
def serving (g : Gru) (i : Fin 6) : Bool := (g.lines[i]).state.inService

/-- No line is in service. -/
def noneServing (g : Gru) : Bool := allLines.all fun i => !serving g i

/-- The nearest line in service counting downward from a line (R102, 00_scope.md). -/
def lowerReceiver (g : Gru) (i : Fin 6) : Option (Fin 6) :=
  [i + 5, i + 4, i + 3, i + 2, i + 1].find? fun j => serving g j

/-- The nearest line in service counting upward from a line (R102, 00_scope.md). -/
def higherReceiver (g : Gru) (i : Fin 6) : Option (Fin 6) :=
  [i + 1, i + 2, i + 3, i + 4, i + 5].find? fun j => serving g j

/-- The shortfall measure: owed grout over the six lines and the pool (R89). -/
def shortfallMeasure (g : Gru) : Int := (allLines.map fun i => (g.lines[i]).owed).sum + g.pool

/-- The modes in which a line may start to dose (R90). -/
def dosingMode (m : Mode) : Bool := m == .boring || m == .standstill

/-! ## Build -/

/-- A plan is active while RUNNING, WAITING or PAUSED (section 6.2). -/
def PlanState.active : PlanState → Bool
  | .running => true | .waiting => true | .paused _ => true
  | .idle => false | .complete => false | .faulted _ => false

/-- A plan is RUNNING or WAITING (R113). -/
def PlanState.busy : PlanState → Bool
  | .running => true | .waiting => true
  | .paused _ => false | .idle => false | .complete => false | .faulted _ => false

/-- The kind of the step in flight, none where none is (chapter 6). -/
def stepInFlight (b : Bld) : Option StepKind :=
  if b.flight = .none then none else some (b.table[b.slot]).kind

end Sys2Proof.Machine
end

