-- ==== Sys2Proof/Machine/Ring.lean ====
section
/-! DEFINITION. Ring Unit: the open record, the ring log, closing and settling (chapter 7). -/

namespace Sys2Proof.Machine

/-! ## Finding a record by number (R137) -/

/-- Change the newest entry that satisfies `p`; the list is oldest first. -/
def changeNewest (p : LogEntry → Bool) (f : LogEntry → LogEntry) (log : List LogEntry) : List LogEntry :=
  (log.reverse.modify (log.reverse.findIdx p) f).reverse

/-- The newest log entry carrying a number. -/
def newestEntry (number : Nat) (log : List LogEntry) : Option LogEntry :=
  log.reverse.find? fun e => e.record.number == number

/-- Change the newest log entry carrying a number; without one nothing changes (R137). -/
def onEntry (number : Nat) (f : LogEntry → LogEntry) (s : State) : State :=
  s.onRgu fun r => { r with log := changeNewest (fun e => e.record.number == number) f r.log }

/-- Change the record of a ring named by its number: the open record, else the newest log entry, else
nothing (R137). -/
def onRing (number : Nat) (f : RingRecord → RingRecord) (s : State) : State :=
  if s.rgu.current.number = number then s.onRgu fun r => { r with current := f r.current }
  else onEntry number (fun e => { e with record := f e.record }) s

/-- Change the open record. -/
def onOpen (f : RingRecord → RingRecord) (s : State) : State :=
  s.onRgu fun r => { r with current := f r.current }

/-- Set an event flag of the open record (R137). -/
def flagOpen (f : RingFlags → RingFlags) (s : State) : State := onOpen (fun r => { r with flags := f r.flags }) s

/-- Set an event flag of the record of a ring named by its number (R137). -/
def flagRing (number : Nat) (f : RingFlags → RingFlags) (s : State) : State :=
  onRing number (fun r => { r with flags := f r.flags }) s

/-! ## What the other units hand over -/

/-- A step record's totals go to the ring it names; for the open ring the stroke mirror is set to S (R138). -/
def addStepTotals (rec : StepRecord) (s : State) : State :=
  let s' := onRing rec.ring (fun r => { r with volume := satAdd r.volume rec.volume, mass := satAdd r.mass rec.mass }) s
  if s.rgu.current.number = rec.ring then onOpen (fun r => { r with stroke := s.adv.stroke }) s' else s'

/-- FCU hands over the measured mass while the open ring is the weighing ring (R139). -/
def showMeasured (s : State) : State :=
  if s.fcu.weighing = some s.rgu.current.number then
    onOpen (fun r => { r with measured := some s.fcu.measured }) s
  else s

/-- FCU hands over a valid axis pressure (R139). -/
def takeAxis (pressure : Nat) (s : State) : State :=
  onOpen (fun r =>
    { r with axis := some (match r.axis with
      | some a => { lowest := min a.lowest pressure, highest := max a.highest pressure }
      | none => { lowest := pressure, highest := pressure }) }) s

/-- A segment entry is appended with a sequence number equal to the new count (R140). -/
def appendSegment (kind : SegKind) (start width : Nat) (outcome : SegOutcome) (s : State) : State :=
  onOpen (fun r =>
    { r with segments := r.segments ++ [{ sequence := r.segments.length + 1, kind, start, width, outcome }] }) s

/-- PFS hands over a profile activation: a change entry with ADV's step serial; at a full list it replaces the
fourth and sets "more changes" (R141). -/
def recordActivation (p : ProfileName) (s : State) : State :=
  let entry : ProfileChange := { serial := s.adv.serial, profile := p }
  onOpen (fun r =>
    if r.changes.length < 4 then { r with changes := r.changes ++ [entry] }
    else { r with changes := r.changes.take 3 ++ [entry], moreChanges := true }) s

/-! ## Figures of the grout lines -/

/-- The six lines' figures as they stand (R108). -/
def lineFigures (g : Gru) : Vector LineFigures 6 :=
  Vector.ofFn fun i => { accrued := g.lines[i].accrued, delivered := g.lines[i].delivered, owed := g.lines[i].owed }

/-- GRU sets the accrued and delivered figures to 0 and takes the figures ring (R108). -/
def beginFigures (ring : Nat) (s : State) : State :=
  s.onGru fun g =>
    { g with figuresRing := ring,
             lines := Vector.ofFn fun i => { g.lines[i] with accrued := 0, delivered := 0 } }

/-- GRU takes a ring close: it hands over the closed ring's figures, begins the new ring's, and while SHORT
has the new ring's flag set (R108, R144). -/
def closeFigures (closed opened : Nat) (s : State) : State :=
  let s := onEntry closed (fun e => { e with figures := some (lineFigures s.gru) }) s
  let s := beginFigures opened s
  if s.gru.shortfall = .short then flagOpen (fun f => { f with groutShort := true }) s else s

/-- A late accrual: each line's demand is added to the accrued and the owed at close of the named ring's log
entry (R88, R144). -/
def lateAccrual (rec : StepRecord) (s : State) : State :=
  onEntry rec.ring (fun e =>
    { e with figures := e.figures.map fun v => Vector.ofFn fun i =>
        { v[i] with accrued := satAdd v[i].accrued rec.grout[i],
                    owed := satAddInt v[i].owed rec.grout[i] } }) s

/-! ## Closing and reopening (R142, R143, R145, R148) -/

/-- The number of the ring after this one: 1 after 65,535 (R143). -/
def nextRing (number : Nat) : Nat := if number ≥ 65535 then 1 else number + 1

/-- The closed record with its stroke at close (R143, section 7.1). -/
def closedEntry (r : RingRecord) (stroke : Nat) : LogEntry :=
  { record := { r with stroke := stroke, measured := none }, strokeAtClose := stroke, figures := none,
    settled := none }

/-- An entry is appended to the log: at 32 entries the oldest is dropped first (R145). -/
def appendLog (log : List LogEntry) (e : LogEntry) : List LogEntry :=
  if log.length < Config.logCapacity then log ++ [e] else log.drop 1 ++ [e]

/-- RGU closes the open ring and opens the next: one event (R143, with R12, R108 and R145). -/
def closeRing (s : State) : State :=
  let r := s.rgu.current
  let stroke := s.adv.stroke
  let opened := nextRing r.number
  let newStroke := stroke - (s.geometry.map Geometry.ringLength).getD 0
  let s := s.onRgu fun u =>
    { u with current := RingRecord.opened opened newStroke s.pfs.active,
             log := appendLog u.log (closedEntry r stroke) }
  let s := withdrawHold .strokeLimit (s.onAdv fun a => { a with stroke := newStroke })
  let s := closeFigures r.number opened s
  notify .ringClosed
    [u2 r.number, u2 stroke, u1 r.segments.length, u4 r.volume, u4 r.mass, u2 opened, u2 newStroke] s

/-- BLD tells RGU that build_done holds: the ring closes if stroke_done already holds (R140, R142). -/
def setBuildDone (s : State) : State :=
  let s := onOpen (fun r => { r with buildDone := true }) s
  if s.rgu.current.strokeDone then closeRing s else s

/-- ADV tells RGU that stroke_done holds: the ring closes if build_done already holds (R11, R142). -/
def setStrokeDone (s : State) : State :=
  let s := onOpen (fun r => { r with strokeDone := true }) s
  if s.rgu.current.buildDone then closeRing s else s

/-- RGU reopens the ring with a number and stroke 0: ADV sets S and P to 0 and withdraws STROKE_LIMIT, GRU
begins new figures (R12, R108, R148). -/
def reopenRing (number : Nat) (s : State) : State :=
  let s := s.onRgu fun u => { u with current := RingRecord.opened number 0 s.pfs.active }
  let s := withdrawHold .strokeLimit (s.onAdv fun a => { a with stroke := 0, acc := 0 })
  beginFigures number s

/-! ## Settlement (R146) -/

/-- FCU hands over a settled balance: it is entered once in the newest log entry of that number, with a
RING_SETTLED notice, and otherwise discarded (R146). -/
def settleRing (number : Nat) (b : Balance) (s : State) : State :=
  match newestEntry number s.rgu.log with
  | none => s
  | some e =>
    match e.settled with
    | some _ => s
    | none =>
      notify .ringSettled [u2 number, u4 b.expected, u4 b.measured, opt 2 b.ratio]
        (onEntry number (fun e => { e with settled := some b }) s)

end Sys2Proof.Machine
end

