-- ==== Sys2Proof/Machine/Face.lean ====
section
/-! DEFINITION. Face Unit: the screw regulator, the face-support checks, weighing and the transit queue
(chapter 4). What posts a halt cause is in Jobs.lean: these functions leave the postings to their callers. -/

namespace Sys2Proof.Machine

/-- Set the screw command; the gate is OPEN while it is above 0 (R67). -/
def setScrew (v : Nat) (s : State) : State := s.onFcu fun f => { f with screw := v, gateOpen := decide (0 < v) }

/-- Bring the screw command to the cap when it is above it (R67). -/
def capScrew (s : State) : State := if screwCap s < s.fcu.screw then setScrew (screwCap s) s else s

/-! ## Bin and chamber pressure (R63, R64) -/

/-- The bin test against bin_halt and bin_resume (R63). -/
def binTest (level : Nat) (s : State) : State :=
  if !s.fcu.binHalt && decide (s.profile.binHalt ≤ level) then
    postHold .binFull (s.onFcu fun f => { f with binHalt := true })
  else if s.fcu.binHalt && decide (level ≤ s.profile.binResume) then
    withdrawHold .binFull (s.onFcu fun f => { f with binHalt := false })
  else s

/-- The bin test against the last report, if there is one (R63); while the BULKHEAD station is not ONLINE the flag may
stay, as R72 has it (log 28). -/
def binRetest (s : State) : State :=
  match s.fcu.last with
  | some r => if retested s then binTest r.bin s else s
  | none => s

/-- The chamber-high tests for a valid axis pressure (R64). -/
def chamberTest (axis : Nat) (s : State) : State :=
  let limit := setPoint s + s.profile.chamberOver
  if !s.fcu.chamberHigh && decide (limit ≤ axis) then
    postHold .chamberHigh (s.onFcu fun f => { f with chamberHigh := true })
  else if s.fcu.chamberHigh && decide ((axis : Int) ≤ limit - s.profile.deadband) then
    withdrawHold .chamberHigh (s.onFcu fun f => { f with chamberHigh := false })
  else s

/-- The chamber-high tests against the last report's axis pressure, if it was valid (R64); while the BULKHEAD station is
not ONLINE the flag may stay, as R71 and R72 have it (log 28). -/
def chamberRetest (s : State) : State :=
  match s.fcu.last with
  | some r => if r.axis.valid && retested s then chamberTest r.axis.pressure s else s
  | none => s

/-! ## Under-support (R70) -/

/-- FCU evaluates the under-support condition against the last report (R70). -/
def underTest (s : State) : State :=
  match s.fcu.last with
  | none => s
  | some r =>
    if r.crown.valid = false then
      if s.fcu.under = .suspended then s
      else markHalt .faceUnder true (s.onFcu fun f => { f with under := .suspended, underTimer := .stopped })
    else
      let s := if s.fcu.under = .suspended then s.onFcu fun f => { f with under := .clear } else s
      match s.fcu.under, underSupport s with
      | .clear, true =>
        markHalt .faceUnder false
          (setScrew 0 (s.onFcu fun f => { f with under := .qualifying, underTimer := s.after s.profile.tUnder }))
      | .qualifying, false =>
        markHalt .faceUnder true (s.onFcu fun f => { f with under := .clear, underTimer := .stopped })
      | .posted, false => markHalt .faceUnder true (s.onFcu fun f => { f with under := .clear })
      | .clear, false => s
      | .qualifying, true => s
      | .posted, true => s
      | .suspended, _ => s

/-- FCU evaluates the under-support condition for a new crown_min (R70). While the BULKHEAD station is not ONLINE the
state, its timer and FACE_UNDER may stay, as R72 has them (log 28); s is 0 under the condition all the same. -/
def underRetest (s : State) : State :=
  match s.fcu.last with
  | some _ => if retested s then underTest s else if underSupport s then setScrew 0 s else s
  | none => s

/-! ## The regulator (R65, R66) -/

/-- The regulator state that the mode and the face-blind flag call for; entering OFF sets s to 0 (R65). -/
def followRegulator (s : State) : State :=
  if s.mdu.mode = .standby then setScrew 0 (s.onFcu fun f => { f with regulator := .off })
  else s.onFcu fun f => { f with regulator := if f.faceBlind then .blind else .regulating }

/-- The regulation step for an axis pressure (R66). -/
def regulate (axis : Nat) (s : State) : State :=
  let p := s.profile
  let e : Int := axis - setPoint s
  if s.fcu.regulator ≠ .regulating ∨ underSupport s = true ∨ e.natAbs ≤ p.deadband then s
  else
    let delta := clampInt (-(p.stepMax : Int)) p.stepMax ((e * p.kp).tdiv 100)
    setScrew (clampInt 0 (screwCap s) ((s.fcu.screw : Int) + delta)).toNat s

/-! ## Sensor validity and face-blind (R62, R71) -/

/-- SENSOR: the sensor by its place in the report, its new validity and the pressure reported (R62). -/
def noticeSensor (sensor : Nat) (previous : Bool) (r : Reading) (s : State) : State :=
  if r.valid = previous then s else notify .sensor [u1 sensor, fl r.valid, u2 r.pressure] s

/-- The face-blind condition: the BULKHEAD station is not ONLINE, or the last report shows the axis pressure
invalid (R71). -/
def faceBlind (s : State) : Bool :=
  !s.online 2 || (match s.fcu.last with
    | some r => !r.axis.valid
    | none => false)

/-- FCU follows the face-blind condition: the flag, the regulator, and the withdrawal of FACE_BLIND when it
ends (R71). The posting when it begins is made by the caller. -/
def followBlind (s : State) : State :=
  let blind := faceBlind s
  if blind = s.fcu.faceBlind then s
  else
    let s := followRegulator (s.onFcu fun f => { f with faceBlind := blind })
    if blind then s else withdrawHalt .faceBlind s

/-- The sensor validity test (R62). -/
def sensorTest (previous : Option BulkheadReport) (r : BulkheadReport) (s : State) : State :=
  let was (f : BulkheadReport → Reading) : Bool := match previous with
    | some p => (f p).valid
    | none => true
  let s := noticeSensor 0 (was (·.crown)) r.crown s
  let s := noticeSensor 1 (was (·.axis)) r.axis s
  let s := noticeSensor 2 (was (·.invert)) r.invert s
  let s := if was (·.crown) && !r.crown.valid then flagOpen (fun f => { f with crownSuspended := true }) s else s
  let s := followBlind s
  if r.axis.valid then takeAxis r.axis.pressure s else s

/-! ## The report (R61) -/

/-- FCU takes a BULKHEAD report as one event (R61). The report that ends the under-support condition makes no
regulation step: s stays at 0, and regulation resumes at the next report (R70; log 26 for a crown reading that
becomes invalid). -/
def bulkheadReport (r : BulkheadReport) (s : State) : State :=
  let r := { r with bin := min 100 r.bin }
  let held := underHeld s
  let s := sensorTest s.fcu.last r (s.onFcu fun f => { f with last := some r })
  let s := binTest r.bin s
  let s := if r.axis.valid then chamberTest r.axis.pressure s else s
  let s := underTest s
  let s := if r.axis.valid && !held then regulate r.axis.pressure s else s
  capScrew s

/-! ## Weighing, the transit queue and settlement (R73 to R79) -/

/-- A pulse on BELT-P: belt_mass_per_pulse, or 0 g while the geometry record is UNSET (R73). -/
def weighPulse (s : State) : State :=
  let mass := (s.geometry.map Geometry.beltMassPerPulse).getD 0
  showMeasured (s.onFcu fun f => { f with measured := satAdd f.measured mass })

/-- EXCAVATION, with the ring, the balance and the ratio (R78, R79). -/
def noticeExcavation (isOver : Bool) (s : State) : State :=
  notify .excavation
    [.raw [Config.excavationMarkByte isOver], u2 (s.fcu.weighing.getD 0), u4 s.fcu.due, u4 s.fcu.measured,
     opt 2 (massRatio s.fcu.measured s.fcu.due)] s

/-- Set a flag on the weighing ring's record (R78, R79). -/
def flagWeighing (f : RingFlags → RingFlags) (s : State) : State :=
  match s.fcu.weighing with
  | some ring => flagRing ring f s
  | none => s

/-- The over-excavation check after a release (R78). -/
def overCheck (s : State) : State :=
  match s.fcu.excav, overExcavated s with
  | .normal, true => s.onFcu fun f => { f with excav := .qualifying, excavTimer := s.after s.profile.tExcav }
  | .qualifying, false => s.onFcu fun f => { f with excav := .normal, excavTimer := .stopped }
  | .posted, false => s.onFcu fun f => { f with excav := .normal }
  | .normal, false => s
  | .qualifying, true => s
  | .posted, true => s

/-- The under-excavation check after a release (R79). -/
def underCheck (s : State) : State :=
  if underExcavated s = s.fcu.underMark then s
  else
    let s := s.onFcu fun f => { f with underMark := underExcavated s }
    if s.fcu.underMark then noticeExcavation false (flagWeighing (fun f => { f with underExcavation := true }) s)
    else s

/-- The weighing ring becomes an entry's ring: from none the measured mass is kept; another ring is settled
first and the account starts afresh (R77). -/
def turnWeighing (e : TransitEntry) (s : State) : State :=
  match s.fcu.weighing with
  | none => showMeasured (s.onFcu fun f => { f with weighing := some e.ring, due := satAdd f.due e.mass })
  | some ring =>
    if ring = e.ring then s.onFcu fun f => { f with due := satAdd f.due e.mass }
    else
      let balance : Balance :=
        { expected := s.fcu.due, measured := s.fcu.measured, ratio := massRatio s.fcu.measured s.fcu.due }
      showMeasured ((settleRing ring balance s).onFcu fun f =>
        { f with weighing := some e.ring, due := min accumulatorMax e.mass, measured := 0, excav := .normal,
                 excavTimer := .stopped, underMark := false })

/-- A released entry is handled as one event (R77). -/
def releaseEntry (e : TransitEntry) (s : State) : State := underCheck (overCheck (turnWeighing e s))

/-- The entry's age timer has run out. -/
def entryAged (now : Nat) (e : TransitEntry) : Bool :=
  match e.age with
  | .running t => decide (t ≤ now)
  | .stopped => false

/-- Release the head entries whose age timers have run out, head first (R75). The fuel is the queue's
length. -/
def releaseAged : Nat → State → State
  | 0, s => s
  | fuel + 1, s =>
    match s.fcu.transit with
    | [] => s
    | e :: es =>
      if entryAged s.now e then releaseAged fuel (releaseEntry e (s.onFcu fun f => { f with transit := es })) else s

/-- The early release of the head at a full queue (R76). -/
def releaseEarly (s : State) : State :=
  match s.fcu.transit with
  | [] => s
  | e :: es =>
    releaseEntry e
      (s.onFcu fun f => { f with transit := es, earlyReleases := min 65535 (f.earlyReleases + 1) })

/-- The transit entry of a step record; its age timer counts from the entry time, and is stopped while
belt_transit has no value (R74). -/
def transitEntry (geometry : Option Geometry) (rec : StepRecord) : TransitEntry :=
  { serial := rec.serial, ring := rec.ring, mass := rec.mass, time := rec.time,
    age := match geometry with
      | some g => .running (rec.time + g.beltTransit * Config.millis)
      | none => .stopped }

/-- FCU takes a step record (R74, R76). -/
def appendTransit (rec : StepRecord) (s : State) : State :=
  let full := decide (Config.transitCapacity ≤ s.fcu.transit.length)
  let s := if full then releaseEarly s else s
  let s := s.onFcu fun f => { f with transit := f.transit ++ [transitEntry s.geometry rec] }
  if full then releaseAged s.fcu.transit.length s else s

/-! ## Modes, settings and resets -/

/-- FCU takes a change of the machine mode (R65, R67, R81). FACE_BLIND and FACE_UNDER are posted by the
caller. -/
def faceMode (previous mode : Mode) (s : State) : State :=
  let s := capScrew (followRegulator s)
  if mode = .ready ∧ previous = .standby then
    let s := if s.fcu.binHalt then postHold .binFull s else s
    if s.fcu.chamberHigh then postHold .chamberHigh s else s
  else s

/-- FCU takes up a profile activation: `old` is the profile before it (R69). Its tests are made against the last report;
while the BULKHEAD station is not ONLINE, R72 may have the flags and the under-support state stay (log 28). -/
def faceProfile (old : Profile) (s : State) : State :=
  let p := s.profile
  let s :=
    if old.chamberTarget = p.chamberTarget ∧ old.chamberOver = p.chamberOver ∧ old.deadband = p.deadband then s
    else chamberRetest s
  let s := if old.binHalt = p.binHalt ∧ old.binResume = p.binResume then s else binRetest s
  let s := if old.crownMin = p.crownMin then s else underRetest s
  capScrew s

/-- FCU takes an accepted geometry record (R80, R139). -/
def faceGeometry (ring : Nat) (s : State) : State :=
  showMeasured (s.onFcu fun f =>
    { f with transit := [], weighing := some ring, due := 0, measured := 0, excav := .normal,
             excavTimer := .stopped, underMark := false })

/-- FCU takes the host restart (R84). -/
def faceRestart (s : State) : State := setScrew 0 (s.onFcu fun f => { f with regulator := .off })

end Sys2Proof.Machine
end

