-- ==== Sys2Proof/Machine/Grout.lean ====
section
/-! DEFINITION. Grout Unit: lines, dosing, leaving and returning to service, weights and shortfall
(chapter 5). -/

namespace Sys2Proof.Machine

/-- The record of a line. -/
def State.line (s : State) (i : Fin 6) : Line := s.gru.lines[i]

/-- Change the record of a line. -/
def onLine (i : Fin 6) (f : Line → Line) (s : State) : State :=
  s.onGru fun g => { g with lines := vmod g.lines i f }

/-- Every timer of a line stopped. -/
def Line.timersStopped (l : Line) : Line :=
  { l with idleTimer := .stopped, holdTimer := .stopped, flushTimer := .stopped }

/-- The station address of a line: GROUT-i at 8 + i (section 5.1). -/
def groutAddress (i : Fin 6) : Nat := 8 + i.val

/-- The pump action asked of a line (R87). -/
def pumpAction : LineState → PumpAction
  | .injecting => .run
  | .flushing => .flush
  | .idle => .stop | .holding => .stop | .blocked => .stop | .isolated _ => .stop

/-- The volume of one pump stroke of a line; free while the geometry record is UNSET (log 8). -/
def strokeVolume (s : State) (i : Fin 6) : Nat :=
  match s.geometry with
  | some g => g.strokeVolume[i]
  | none => Config.unsetStrokeVolume i

/-! ## Effective weights (R103) -/

/-- The configured weight as a number: 0 while UNSET. -/
def configuredWeight (g : Gru) (i : Fin 6) : Nat := ((g.lines[i]).configured).getD 0

/-- What line `i` gives to line `j`: nothing in service; out of service half to each receiver (R103). -/
def weightGiven (g : Gru) (j i : Fin 6) : Nat :=
  if serving g i then 0
  else
    (if lowerReceiver g i = some j then configuredWeight g i / 2 else 0) +
    (if higherReceiver g i = some j then configuredWeight g i - configuredWeight g i / 2 else 0)

/-- The effective weight of a line, formed from the configured weights (R103). -/
def effectiveWeight (g : Gru) (j : Fin 6) : Nat :=
  if serving g j then configuredWeight g j + (allLines.map fun i => weightGiven g j i).sum else 0

/-- GRU recomputes the six effective weights (R103). -/
def recomputeWeights (s : State) : State :=
  s.onGru fun g =>
    { g with lines := Vector.ofFn fun i => { g.lines[i] with effective := effectiveWeight g i } }

/-! ## Notices, GROUT_NONE and the shortfall -/

/-- LINE_STATE, with the values as they stand (R94). -/
def noticeLine (i : Fin 6) (previous : LineState) (s : State) : State :=
  let l := s.line i
  notify .lineState
    ([u1 i, u1 previous.code, u1 l.state.code, opt 1 (l.state.cause.map IsolationCause.code), i4 l.owed,
      i4 s.gru.pool] ++ allLines.map fun j => u2 (s.line j).effective) s

/-- GRU posts GROUT_NONE. -/
def postGroutNone (s : State) : State :=
  postHold .groutNone (s.onGru fun g => { g with nonePosted := true })

/-- GRU withdraws GROUT_NONE. -/
def withdrawGroutNone (s : State) : State :=
  withdrawHold .groutNone (s.onGru fun g => { g with nonePosted := false })

/-- MDU has emptied the hold-reason set: GRU posts GROUT_NONE again at once if no line is in service (R106). -/
def repostGroutNone (s : State) : State :=
  if noneServing s.gru then postGroutNone s else s.onGru fun g => { g with nonePosted := false }

/-- GRU evaluates the shortfall measure (R105). -/
def evalShortfall (s : State) : State :=
  match s.gru.shortfall with
  | .normal =>
    if (s.profile.shortLimit : Int) ≤ shortfallMeasure s.gru then
      s.onGru fun g => { g with shortfall := .qualifying, shortTimer := s.after s.profile.tGshort }
    else s
  | .qualifying =>
    if shortfallMeasure s.gru ≤ s.profile.shortResume then
      s.onGru fun g => { g with shortfall := .normal, shortTimer := .stopped }
    else s
  | .short =>
    if shortfallMeasure s.gru ≤ s.profile.shortResume then
      withdrawHold .groutShort (s.onGru fun g => { g with shortfall := .normal })
    else s

/-- Expiry of T_gshort in QUALIFYING (R105). -/
def shortfallExpiry (s : State) : State :=
  let s := s.onGru fun g => { g with shortfall := .short, shortTimer := .stopped }
  flagOpen (fun f => { f with groutShort := true }) (postHold .groutShort s)

/-! ## Dosing and the pressure window (R90 to R92) -/

/-- A line goes to INJECTING with a fresh idle timer (R90, R92). -/
def startInjecting (i : Fin 6) (s : State) : State :=
  onLine i (fun l => { l with state := .injecting, idleTimer := s.after s.profile.tIdle }) s

/-- The line owes a dose and the mode lets it start (R90). -/
def doseDue (s : State) (i : Fin 6) : Bool :=
  decide ((s.profile.doseStart : Int) ≤ (s.line i).owed) && dosingMode s.mdu.mode

/-- The dosing test (R90). -/
def doseTest (i : Fin 6) (s : State) : State :=
  if (s.line i).state = .idle ∧ doseDue s i = true then startInjecting i s else s

/-- An INJECTING line goes to IDLE, its idle timer stopped and its owed value kept (R91, R93, R111). -/
def stopInjecting (i : Fin 6) (s : State) : State :=
  if (s.line i).state = .injecting then
    onLine i (fun l => { l with state := .idle, idleTimer := .stopped }) s
  else s

/-- An INJECTING line whose owed value is at or below 0 goes to IDLE (R91). -/
def paidTest (i : Fin 6) (s : State) : State := if (s.line i).owed ≤ 0 then stopInjecting i s else s

/-- A HOLDING line with its hold timer expired owes at least block_owed (R92). -/
def blockDue (s : State) (i : Fin 6) : Bool :=
  (s.line i).state == .holding && (s.line i).holdTimer == .expired
    && decide ((s.profile.blockOwed : Int) ≤ (s.line i).owed)

/-- A pressure at the port of an INJECTING or HOLDING line is tested (R91, R92). -/
def pressureTest (i : Fin 6) (pressure : Nat) (s : State) : State :=
  match (s.line i).state with
  | .injecting =>
    if s.profile.groutPMax ≤ pressure then
      onLine i (fun l => { l with state := .holding, idleTimer := .stopped,
                                  holdTimer := s.markAfter s.profile.tHold }) s
    else s
  | .holding =>
    if pressure + s.profile.groutHyst ≤ s.profile.groutPMax then
      let s := onLine i (fun l => { l with state := .idle, holdTimer := .stopped }) s
      if doseDue s i then startInjecting i s else s
    else s
  | .idle => s | .blocked => s | .flushing => s | .isolated _ => s

/-! ## Leaving service (R95, R102, R103) -/

/-- Add to the owed value of a line, saturating (R102, R104). -/
def addOwed (i : Fin 6) (amount : Int) (s : State) : State :=
  onLine i (fun l => { l with owed := satAddInt l.owed amount }) s

/-- Pass on the owed value of a line that has left service: floor(owed / 2) to the lower receiver and the rest
to the higher, all to one line when they are the same, all to the pool when no line is in service (R102). -/
def passOn (i : Fin 6) (s : State) : State :=
  let owed := (s.line i).owed
  let s := onLine i (fun l => { l with owed := 0 }) s
  match lowerReceiver s.gru i, higherReceiver s.gru i with
  | some l, some h =>
    if l = h then addOwed l owed s else addOwed h (owed - owed / 2) (addOwed l (owed / 2) s)
  | _, _ => s.onGru fun g => { g with pool := satAddInt g.pool owed }

/-- The receivers of a line that has left service, lower first. -/
def receiversOf (s : State) (i : Fin 6) : List (Fin 6) :=
  match lowerReceiver s.gru i, higherReceiver s.gru i with
  | some l, some h => if l = h then [l] else [l, h]
  | _, _ => []

/-- A line takes an out-of-service state with its timers stopped: it leaves service if it was in it, and
LINE_STATE is sent (R94, R95, R98, R99, R102, R103). GROUT_NONE goes before LINE_STATE, and the receivers are tested
afterwards (log 20). -/
def takeOut (i : Fin 6) (state : LineState) (s : State) : State :=
  let previous := (s.line i).state
  let s := onLine i (fun l => { l.timersStopped with state := state }) s
  let s :=
    if previous.inService then
      let s := recomputeWeights (passOn i s)
      if noneServing s.gru then postGroutNone s else s
    else s
  noticeLine i previous s

/-- Test the receivers of a transfer as their states require; a HOLDING receiver that is found blocked leaves
service in turn, and its receivers are tested next (R102). The fuel bounds the chain: a line leaves at most
once. -/
def testReceivers : Nat → List (Fin 6) → State → State
  | 0, _, s => s
  | _ + 1, [], s => s
  | fuel + 1, j :: js, s =>
    match (s.line j).state with
    | .idle => testReceivers fuel js (doseTest j s)
    | .injecting => testReceivers fuel js (paidTest j s)
    | .holding =>
      if blockDue s j then
        let s := takeOut j .blocked s
        testReceivers fuel (receiversOf s j ++ js) s
      else testReceivers fuel js s
    | .blocked => testReceivers fuel js s
    | .flushing => testReceivers fuel js s
    | .isolated _ => testReceivers fuel js s

/-- More than the tests that six lines leaving one after the other can ask for. -/
abbrev receiverFuel : Nat := 32

/-- A line takes an out-of-service state, and the receivers of what it owed are tested. -/
def leaveTo (i : Fin 6) (state : LineState) (s : State) : State :=
  let was := (s.line i).state.inService
  let s := takeOut i state s
  if was then testReceivers receiverFuel (receiversOf s i) s else s

/-- A line enters BLOCKED (R95). -/
def blockLine (i : Fin 6) (s : State) : State := leaveTo i .blocked s

/-- The tests that follow an increase of a line's owed value: dosing for an IDLE line, blockage for a HOLDING
line with its timer expired (R88, R90, R92). -/
def increaseTest (i : Fin 6) (s : State) : State :=
  if blockDue s i then blockLine i s else doseTest i s

/-! ## Returning to service (R97, R100, R101, R104) -/

/-- A line returns to service as IDLE: it takes the whole pool, the weights are recomputed, GROUT_NONE is
withdrawn if no line was in service, LINE_STATE is sent and the dosing test made (R104). The HOLD_CHANGED of that
withdrawal goes before LINE_STATE, and LINE_STATE before the test, with the state IDLE (log 20). -/
def returnLine (i : Fin 6) (s : State) : State :=
  let previous := (s.line i).state
  let first := noneServing s.gru
  let pool := s.gru.pool
  let s := onLine i (fun l => { l with state := .idle, flushTimer := .stopped }) s
  let s := (addOwed i pool s).onGru fun g => { g with pool := 0 }
  let s := recomputeWeights s
  let s := if first then withdrawGroutNone s else s
  doseTest i (noticeLine i previous s)

/-- The return of R101 for one line: in STANDBY with the geometry record set, a line in ISOLATED(STATION)
whose station is ONLINE. -/
def returnTest (i : Fin 6) (s : State) : State :=
  if s.mdu.mode = .standby ∧ s.geometry.isSome = true ∧ (s.line i).state = .isolated .station
      ∧ s.online (groutAddress i) = true then returnLine i s
  else s

/-- The return of R101 for every line, in ascending index. -/
def returnAll (s : State) : State := allLines.foldl (fun s i => returnTest i s) s

/-! ## Reports (R85, R86) -/

/-- The new strokes a count shows: none without a baseline, none while FLUSHING, otherwise the difference
modulo 65,536 (R85). -/
def newStrokes (l : Line) (count : Nat) : Nat :=
  if l.state = .flushing then 0
  else
    match l.lastCount with
    | none => 0
    | some c => (count + 65536 - c % 65536) % 65536

/-- The stroke accounting of R86 and the evaluation of R105 that follows it. -/
def countStrokes (i : Fin 6) (n : Nat) (s : State) : State :=
  let volume := n * strokeVolume s i
  evalShortfall
    (onLine i (fun l =>
      { l with delivered := satAdd l.delivered volume, owed := satAddInt l.owed (-(volume : Int)),
               idleTimer := match l.idleTimer with
                 | .running _ => s.after s.profile.tIdle
                 | .stopped => .stopped }) s)

/-- GRU takes a report from a line's station as one event (R85). -/
def groutReport (i : Fin 6) (r : GroutReport) (s : State) : State :=
  let n := newStrokes (s.line i) r.count
  let s := onLine i (fun l =>
    { l with lastPressure := some r.pressure, pumpRunning := some r.pump, flushOpen := some r.flush,
             lastCount := some r.count }) s
  let s := if n = 0 then s else paidTest i (countStrokes i n s)
  returnTest i (pressureTest i r.pressure s)

/-! ## Step records (R88) -/

/-- GRU takes a step record: accrual, the tests of each line and the shortfall evaluation (R88). -/
def accrue (rec : StepRecord) (s : State) : State :=
  let mine := rec.ring = s.gru.figuresRing
  let s := s.onGru fun g =>
    { g with lines := Vector.ofFn fun i =>
        { g.lines[i] with
          owed := satAddInt g.lines[i].owed rec.grout[i],
          accrued := if mine then satAdd g.lines[i].accrued rec.grout[i] else g.lines[i].accrued } }
  let s := if mine then s else lateAccrual rec s
  evalShortfall (allLines.foldl (fun s i => increaseTest i s) s)

/-! ## Stations, modes and settings -/

/-- SLC marks a GROUT station LOST or disabled (R99). -/
def groutLost (i : Fin 6) (s : State) : State :=
  let s := onLine i (fun l => { l with lastCount := none }) s
  match (s.line i).state with
  | .isolated _ => onLine i Line.timersStopped s
  | .idle => leaveTo i (.isolated .station) s
  | .injecting => leaveTo i (.isolated .station) s
  | .holding => leaveTo i (.isolated .station) s
  | .blocked => leaveTo i (.isolated .station) s
  | .flushing => leaveTo i (.isolated .station) s

/-- Every INJECTING line goes to IDLE (R93, R111). -/
def stopAllInjecting (s : State) : State := allLines.foldl (fun s i => stopInjecting i s) s

/-- The dosing test for every line (R90, R93). -/
def doseAll (s : State) : State := allLines.foldl (fun s i => doseTest i s) s

/-- GRU takes a change of the machine mode (R93, R101, R106). -/
def groutMode (previous mode : Mode) (s : State) : State :=
  match mode with
  | .standby => returnAll (stopAllInjecting s)
  | .ready =>
    let s := stopAllInjecting s
    if previous = .standby then
      let s := if s.gru.shortfall = .short then postHold .groutShort s else s
      if noneServing s.gru then postGroutNone s else s
    else s
  | .halted => stopAllInjecting s
  | .boring => if dosingMode previous then s else doseAll s
  | .standstill => if dosingMode previous then s else doseAll s

/-- GRU takes up a profile activation: `old` is the profile before it (R107). Its tests are made in the order in
which R107 lists them: a line that a new dose_start sets INJECTING is tested against a new pressure limit next
(log 4). -/
def groutProfile (old : Profile) (s : State) : State :=
  let p := s.profile
  let s := if old.doseStart = p.doseStart then s else doseAll s
  let s :=
    if old.groutPMax = p.groutPMax ∧ old.groutHyst = p.groutHyst then s
    else allLines.foldl (fun s i => match (s.line i).lastPressure with
      | some v => pressureTest i v s
      | none => s) s
  let s :=
    if old.blockOwed = p.blockOwed then s
    else allLines.foldl (fun s i => if blockDue s i then blockLine i s else s) s
  if old.shortLimit = p.shortLimit ∧ old.shortResume = p.shortResume then s else evalShortfall s

/-- GRU takes an accepted geometry record: new figures, new weights, and the return of R101 (R108). -/
def groutGeometry (g : Geometry) (ring : Nat) (s : State) : State :=
  let s := beginFigures ring s
  let s := s.onGru fun u =>
    { u with lines := Vector.ofFn fun i => { u.lines[i] with configured := some g.lineWeight[i] } }
  returnAll (recomputeWeights s)

end Sys2Proof.Machine
end

