-- ==== Sys2Proof/Machine/Advance.lean ====
section
/-! DEFINITION. Advance Unit: pulses and the advance step (chapter 1). -/

namespace Sys2Proof.Machine

/-! ## The step arithmetic (R6 to R8, R13, R14) -/

/-- The excavated volume of a step with the carried remainder, before the division by 100 (R6). -/
def volumeNumerator (g : Geometry) (d rV : Nat) : Nat := g.faceArea * d + rV

/-- The expected mass of a step with the carried remainder, before the division by 1,000,000 (R7). -/
def massNumerator (p : Profile) (volume rM : Nat) : Nat := volume * p.bankDensity * (1000 + p.conditioning) + rM

/-- The grout demand of a line with the carried remainder, before the division by 2,560,000 (R8). -/
def groutNumerator (g : Geometry) (p : Profile) (d weight rG : Nat) : Nat :=
  g.gapArea * d * weight * p.fillFactor + rG

/-- The next step serial, wrapping from 65,535 to 0 (R9). -/
def nextSerial (n : Nat) : Nat := (n + 1) % 65536

/-- The step record of a step with advance `d` (R5 to R9, R13). -/
def stepRecord (d : Nat) (s : State) : StepRecord :=
  match s.geometry with
  | none =>
    { serial := nextSerial s.adv.serial, ring := s.rgu.current.number, advance := d, volume := 0, mass := 0,
      grout := Vector.replicate 6 0, time := s.now }
  | some g =>
    let volume := volumeNumerator g d s.adv.remVolume / 100
    { serial := nextSerial s.adv.serial, ring := s.rgu.current.number, advance := d, volume,
      mass := massNumerator s.profile volume s.adv.remMass / 1000000,
      grout := Vector.ofFn fun i =>
        if (s.gru.lines[i]).effective = 0 then 0
        else groutNumerator g s.profile d (s.gru.lines[i]).effective s.adv.remGrout[i] / 2560000,
      time := s.now }

/-- ADV after a step with advance `d`: the new remainders and serial, and P at 0 (R5 to R9, R13). -/
def advAfterStep (d : Nat) (s : State) : Adv :=
  let a := { s.adv with acc := 0, serial := nextSerial s.adv.serial }
  match s.geometry with
  | none => a
  | some g =>
    let volume := volumeNumerator g d s.adv.remVolume / 100
    { a with
      remVolume := volumeNumerator g d s.adv.remVolume % 100,
      remMass := massNumerator s.profile volume s.adv.remMass % 1000000,
      remGrout := Vector.ofFn fun i =>
        if (s.gru.lines[i]).effective = 0 then s.adv.remGrout[i]
        else groutNumerator g s.profile d (s.gru.lines[i]).effective s.adv.remGrout[i] % 2560000 }

/-! ## The stroke checks (R11) -/

/-- S is at or above ring_length + stroke_margin while build_done is false (R11, R17). -/
def strokeLimitDue (s : State) : Bool :=
  match s.geometry with
  | some g => decide (g.ringLength + g.strokeMargin ≤ s.adv.stroke) && !s.rgu.current.buildDone
  | none => false

/-- The two stroke checks, both against the stroke as it stands after the step (R11, R13). -/
def strokeChecks (s : State) : State :=
  match s.geometry with
  | none => s
  | some g =>
    let limit := strokeLimitDue s
    let s := if g.ringLength ≤ s.adv.stroke then setStrokeDone s else s
    if limit then postHold .strokeLimit s else s

/-- ADV takes an advance step: RGU takes the totals, GRU the demand and FCU the transit entry, and the stroke
checks are made (R5, R10, R11). The step boundary at PFS is taken by the caller. -/
def advanceStep (d : Nat) (s : State) : State :=
  let rec' := stepRecord d s
  let s := s.onAdv fun _ => advAfterStep d s
  strokeChecks (appendTransit rec' (accrue rec' (addStepTotals rec' s)))

/-! ## Pulses (R1 to R4) -/

/-- Classes of an ADV-P pulse (R1). -/
inductive PulseClass where
  | reverse | repaying | credited
  deriving DecidableEq, Repr

/-- The class of a pulse (R1). -/
def pulseClass (advD : Bool) (debt : Nat) : PulseClass :=
  if !advD then .reverse else if 0 < debt then .repaying else .credited

/-- A reverse pulse (R2). The posting of ROLLBACK_LIMIT is made by the caller. -/
def reversePulse (s : State) : State :=
  let first := s.adv.debt = 0
  let s := s.onAdv fun a => { a with debt := min Config.rollbackMax (a.debt + 1) }
  let s := flagOpen (fun f => { f with rollbackSeen := true }) s
  if first then markHalt .rollbackLimit false s else s

/-- B is above the active profile's rollback_limit (R2, R17). -/
def rollbackDue (s : State) : Bool := decide (s.profile.rollbackLimit < s.adv.debt)

/-- A repaying pulse (R3). -/
def repayingPulse (s : State) : State :=
  let s := s.onAdv fun a => { a with debt := a.debt - 1 }
  if s.adv.debt = 0 then markHalt .rollbackLimit true s else s

/-- A credited pulse up to the step: S and P rise, and MDU is told (R4). -/
def creditPulse (s : State) : State :=
  creditStandstill (s.onAdv fun a => { a with stroke := min Config.strokeMax (a.stroke + 1), acc := a.acc + 1 })

/-! ## Modes and settings -/

/-- ADV takes a change of the machine mode: entering READY from STANDBY it posts STROKE_LIMIT again if it still
stands (R17). ROLLBACK_LIMIT is posted by the caller. -/
def advanceMode (previous mode : Mode) (s : State) : State :=
  if mode = .ready ∧ previous = .standby ∧ strokeLimitDue s = true then postHold .strokeLimit s else s

/-- ADV takes an accepted geometry record: every remainder to 0 (R12); S and P go to 0 with the reopening. -/
def advanceGeometry (s : State) : State :=
  s.onAdv fun a => { a with remVolume := 0, remMass := 0, remGrout := Vector.replicate 6 0 }

end Sys2Proof.Machine
end

