-- ==== Sys2Proof/Machine/Thrust.lean ====
section
/-! DEFINITION. Thrust Unit: pair transitions, arcs, group shortage and THRUST_MIN (chapter 2). THU's words to
BLD go to BLD's inbox, which Build.lean empties within the same command. -/

namespace Sys2Proof.Machine

/-- The record of a pair. -/
def State.pair (s : State) (i : Fin 16) : Pair := s.thu.pairs[i]

/-- The thrust station of a pair: 0 to 3 for THRUST-A to THRUST-D (section 2.1). -/
def stationOf (i : Fin 16) : Fin 4 := ⟨i.val / 4, by omega⟩

/-- The address of a thrust station: 3 to 6 (00_scope.md). -/
def thrustAddress (k : Fin 4) : Nat := 3 + k.val

/-- The action asked of a pair (R21). -/
def pairAction (p : Pair) : PairAction :=
  match p.state with
  | .thrusting => .extend p.commanded
  | .releasing => .retract
  | .withdrawn => .retract
  | .reseating => .extend p.commanded
  | .faulted _ => .isolate

/-- The pairs of an arc (R28). -/
def Arc.selects (a : Arc) (i : Fin 16) : Bool := arcSelects a.start a.width i

/-! ## Conditions on the THRUSTING pairs (R24, R26, R27) -/

/-- THU evaluates the group-short condition: the timer starts when it begins, and is cancelled, or GROUP_SHORT
withdrawn, when it ends (R26). -/
def evalGroupShort (s : State) : State :=
  match s.thu.groupTimer, anyGroupShort s with
  | .stopped, true => s.onThu fun t => { t with groupTimer := s.markAfter s.profile.tGroup }
  | .running _, false => s.onThu fun t => { t with groupTimer := .stopped }
  | .expired, false => withdrawHold .groupShort (s.onThu fun t => { t with groupTimer := .stopped })
  | .stopped, false => s
  | .running _, true => s
  | .expired, true => s

/-- Compensation, group shortage and THRUST_MIN are evaluated again (R24, R26, R27). GROUP_SHORT is withdrawn before
THRUST_MIN is posted or withdrawn (log 23). -/
def evalThrust (s : State) : State :=
  let s := evalGroupShort (commandPairs s)
  followHold .thrustMin (thrustMin s) s

/-! ## Arcs (R28 to R35) -/

/-- A word to BLD. -/
def tellBld (w : ArcWord) (s : State) : State := s.onBld fun b => { b with inbox := b.inbox ++ [w] }

/-- THU tells BLD that an arc's reseat is complete. The identifier is free again at once, so BLD's records of the
arc go with the telling: it leaves the plan arcs, and the last placed arc and the background reseat if they name
it (R34, R122, R132). The step that waits for it proceeds when BLD takes the word. -/
def tellReseated (id : Nat) (s : State) : State :=
  tellBld (.reseatDone id) (s.onBld fun b =>
    { b with arcs := b.arcs.filter fun a => a.id != id,
             lastPlaced := if b.lastPlaced = some id then none else b.lastPlaced,
             background := if b.background = some id then none else b.background })

/-- A word to an arc's requester, if any. -/
def tellRequester (a : Arc) (w : ArcWord) (s : State) : State := if a.byBld then tellBld w s else s

/-- Change the arcs in flight with an identifier. -/
def onArc (id : Nat) (f : Arc → Arc) (s : State) : State :=
  s.onThu fun t => { t with arcs := t.arcs.map fun a => if a.id = id then f a else a }

/-- The arc in flight with an identifier. -/
def State.arc (s : State) (id : Nat) : Option Arc := s.thu.arcs.find? fun a => a.id == id

/-- Every selected pair that is not FAULTED is in the given state (R31, R34). -/
def arcAll (s : State) (a : Arc) (state : PairState) : Bool :=
  allPairs.all fun i => !a.selects i || (s.pair i).state.cause.isSome || (s.pair i).state == state

/-- THU checks an arc: a release or a reseat that is complete is told to the requester (R31, R34). -/
def completeArc (a : Arc) (s : State) : State :=
  match a.phase with
  | .withdrawing =>
    if arcAll s a .withdrawn then
      tellRequester a (.withdrawn a.id) (onArc a.id (fun a => { a with phase := .withdrawn, release := .stopped }) s)
    else s
  | .withdrawn => s
  | .reseating =>
    if arcAll s a .thrusting then
      let s := s.onThu fun t =>
        { t with
          pairs := Vector.ofFn fun i =>
            { t.pairs[i] with tag := if t.pairs[i].tag = some a.id then none else t.pairs[i].tag },
          arcs := t.arcs.filter fun b => b.id != a.id }
      if a.byBld then tellReseated a.id s else s
    else s

/-- THU checks every arc, in grant order. -/
def completeArcs (s : State) : State := s.thu.arcs.foldl (fun s a => completeArc a s) s

/-- An arc request is admissible (R29). -/
def admissible (s : State) (r : ArcRequest) : Bool :=
  let sel := arcSelects r.start r.width
  let staying := allPairs.filter fun i => !sel i && (s.pair i).state == .thrusting
  decide (s.thu.arcs.length < 2)
  && (allPairs.all fun i =>
        !sel i || ((s.pair i).tag.isNone && ((s.pair i).state == .thrusting || (s.pair i).state.cause.isSome)))
  && decide (s.profile.nMin ≤ staying.length)
  && (allGroups.all fun g => staying.any fun i => groupOf i == g)

/-- The arc that a grant makes: identifier 1 if free, otherwise 2; withdrawn at once when no selected pair was
THRUSTING (R28). -/
def newArc (s : State) (r : ArcRequest) : Arc :=
  let none := allPairs.all fun i => !arcSelects r.start r.width i || !((s.pair i).state == .thrusting)
  { id := if s.thu.arcs.any (fun a => a.id == 1) then 2 else 1, start := r.start, width := r.width,
    phase := if none then .withdrawn else .withdrawing,
    release := if none then .stopped else s.after s.profile.tRelease,
    reseat := .stopped, placed := false, byBld := true }

/-- THU grants an arc: selected THRUSTING pairs go to RELEASING, and every selected pair takes the tag
(R28). -/
def grantArc (r : ArcRequest) (s : State) : State :=
  let a := newArc s r
  s.onThu fun t =>
    { t with
      pairs := Vector.ofFn fun i =>
        if a.selects i then
          { t.pairs[i] with tag := some a.id,
                            state := if t.pairs[i].state = .thrusting then .releasing else t.pairs[i].state }
        else t.pairs[i],
      arcs := t.arcs ++ [a] }

/-- THU tests the waiting arc request again (R28). -/
def admitWaiting (s : State) : State :=
  match s.thu.waiting with
  | none => s
  | some r =>
    if admissible s r then
      let a := newArc s r
      let s := tellBld (.granted a.id a.start a.width) ((grantArc r s).onThu fun t => { t with waiting := none })
      if a.phase = .withdrawn then tellBld (.withdrawn a.id) s else s
    else s

/-- What follows a change of pair states or of the arcs in flight: the arcs are checked, the waiting request
is tested, and the conditions are evaluated once (R22). R22 and R28 leave the order of these open: the arcs come
first and the conditions last, so a shortage that the return of pairs would end and a grant begins again is seen
as one that went on (log 23). -/
def settleThrust (s : State) : State := evalThrust (admitWaiting (completeArcs s))

/-- THU's answers to a withdrawal request (R28). -/
inductive ArcAnswer where
  | busy | waits
  | granted (arc : Nat) (isWithdrawn : Bool)
  deriving DecidableEq, Repr

/-- THU's answer to BLD's withdrawal request (R28). -/
def arcAnswer (r : ArcRequest) (s : State) : ArcAnswer :=
  if s.thu.waiting.isSome then .busy
  else if admissible s r then .granted (newArc s r).id ((newArc s r).phase == .withdrawn)
  else .waits

/-- THU takes BLD's withdrawal request (R28). -/
def requestArc (r : ArcRequest) (s : State) : State :=
  match arcAnswer r s with
  | .busy => s
  | .granted _ _ => evalThrust (grantArc r s)
  | .waits => s.onThu fun t => { t with waiting := some r }

/-- BLD cancels the waiting arc request (R30). -/
def cancelWaiting (s : State) : State := s.onThu fun t => { t with waiting := none }

/-- An arc begins its reseat: RELEASING and WITHDRAWN pairs go to RESEATING (R33). -/
def startReseat (a : Arc) (byBld : Bool) (s : State) : State :=
  let s := s.onThu fun t =>
    { t with pairs := Vector.ofFn fun i =>
        if a.selects i && (t.pairs[i].state == .releasing || t.pairs[i].state == .withdrawn) then
          { t.pairs[i] with state := .reseating }
        else t.pairs[i] }
  onArc a.id (fun a => { a with phase := .reseating, release := .stopped,
                                reseat := s.markAfter s.profile.tReseat, byBld }) s

/-- THU takes BLD's reseat request (R33). -/
def requestReseat (id : Nat) (s : State) : State :=
  match s.arc id with
  | none => tellReseated id s
  | some a =>
    if a.phase = .reseating then onArc id (fun a => { a with byBld := true }) s
    else settleThrust (startReseat a true s)

/-- BLD tells THU that an arc's segment is placed (R119). -/
def markPlaced (id : Nat) (s : State) : State := onArc id (fun a => { a with placed := true }) s

/-- Expiry of an arc's release timer (R32). -/
def releaseExpiry (a : Arc) (s : State) : State :=
  tellRequester a (.releaseTimeout a.id) (onArc a.id (fun a => { a with release := .stopped }) s)

/-- Expiry of an arc's reseat timer (R35). -/
def reseatExpiry (a : Arc) (s : State) : State :=
  tellRequester a (.reseatTimeout a.id) (onArc a.id (fun a => { a with reseat := .expired }) s)

/-! ## Reports and faults (R22, R36, R38) -/

/-- PAIR_FAULT: the pair, its previous state, its new cause and its arc tag if any (R36). -/
def noticePair (i : Fin 16) (previous : PairState) (cause : PairCause) (s : State) : State :=
  notify .pairFault [u1 i, u1 previous.code, u1 cause.code, opt 1 (s.pair i).tag] s

/-- A pair takes a new state; an entry to FAULTED or a change of its cause sends PAIR_FAULT (R36). -/
def setPairState (i : Fin 16) (state : PairState) (s : State) : State :=
  let previous := (s.pair i).state
  if previous = state then s
  else
    let s := s.onThu fun t => { t with pairs := vmod t.pairs i fun p => { p with state := state } }
    match state.cause with
    | some c => noticePair i previous c s
    | none => s

/-- The state a pair takes on a report of its station (R22, R36, R38). -/
def pairAfter (hold : Nat) (mode : Mode) (p : Pair) (pressure : Nat) (isClear : Bool) (status : PairStatus) :
    PairState :=
  match status with
  | .fault => .faulted .stationFault
  | .ok =>
    match p.state with
    | .thrusting => .thrusting
    | .releasing => if isClear then .withdrawn else .releasing
    | .withdrawn => .withdrawn
    | .reseating => if hold ≤ pressure then .thrusting else .reseating
    | .faulted c =>
      if mode = .standby ∧ p.tag = none ∧ pressed hold pressure isClear = true then .thrusting else .faulted c

/-- The states of the sixteen pairs. -/
def pairStates (t : Thu) : List PairState := allPairs.map fun i => t.pairs[i].state

/-- After a change of pair states the conditions are evaluated; without one nothing is (R22, R27, R28). -/
def settleIfChanged (before : Thu) (s : State) : State :=
  if pairStates s.thu = pairStates before then s else settleThrust s

/-- The four pairs of a thrust station, by the place of their entries in its report (section 2.1). -/
def pairsOf (k : Fin 4) : List (Fin 4 × Fin 16) :=
  [(0, ⟨4 * k.val, by omega⟩), (1, ⟨4 * k.val + 1, by omega⟩), (2, ⟨4 * k.val + 2, by omega⟩),
   (3, ⟨4 * k.val + 3, by omega⟩)]

/-- THU takes a report of a thrust station: the four entries together, then the conditions once (R22). -/
def thrustReport (k : Fin 4) (entries : Vector (Nat × Bool × PairStatus) 4) (s : State) : State :=
  let step (s : State) (ji : Fin 4 × Fin 16) : State :=
    let e := entries[ji.1]
    let state := pairAfter s.profile.holdPressure s.mdu.mode (s.pair ji.2) e.1 e.2.1 e.2.2
    setPairState ji.2 state
      (s.onThu fun t => { t with pairs := vmod t.pairs ji.2 fun p =>
        { p with lastPressure := some e.1, lastClear := some e.2.1, lastStatus := some e.2.2 } })
  settleIfChanged s.thu ((pairsOf k).foldl step s)

/-- A thrust station is LOST or disabled: its four pairs are FAULTED with cause STATION_LOST (R36). -/
def thrustLost (k : Fin 4) (s : State) : State :=
  settleIfChanged s.thu ((pairsOf k).foldl (fun s ji => setPairState ji.2 (.faulted .stationLost) s) s)

/-- An accepted PAIR_REINSTATE: the pair goes to RESEATING (R37). -/
def reinstatePair (i : Fin 16) (s : State) : State := settleIfChanged s.thu (setPairState i .reseating s)

/-! ## Modes, settings and restart -/

/-- THU stores the four setpoints, clamped (R23), commands the pairs and evaluates the group-short condition
(R24, R26). -/
def setSetpoints (v : Vector Nat 4) (s : State) : State :=
  evalGroupShort (commandPairs (s.onThu fun t => { t with setpoints := v }))

/-- THU takes a change of the machine mode: entering READY from STANDBY it posts again what stands
(R26, R27). -/
def thrustMode (previous mode : Mode) (s : State) : State :=
  if mode = .ready ∧ previous = .standby then
    let s :=
      match s.thu.groupTimer, anyGroupShort s with
      | .expired, true => postHold .groupShort s
      | .stopped, true => s.onThu fun t => { t with groupTimer := s.markAfter s.profile.tGroup }
      | .expired, false => s
      | .stopped, false => s
      | .running _, _ => s
    if thrustMin s then postHold .thrustMin s else s
  else s

/-- THU takes up a profile activation: `old` is the profile before it (R25, R27, R28). -/
def thrustProfile (old : Profile) (s : State) : State :=
  let s := if old.holdPressure = s.profile.holdPressure then s else commandPairs s
  if old.nMin = s.profile.nMin then s else settleThrust s

/-- THU takes an accepted geometry record: the setpoints are clamped to the new pair_max_pressure (R23, R24,
R26). -/
def thrustGeometry (g : Geometry) (s : State) : State :=
  setSetpoints (Vector.ofFn fun i => min g.pairMaxPressure s.thu.setpoints[i]) s

/-- THU takes the host restart: the waiting request is discarded, no arc has a requester, and every arc not yet
RESEATING begins its reseat (R41). -/
def thrustRestart (s : State) : State :=
  let s := s.onThu fun t => { t with waiting := none, arcs := t.arcs.map fun a => { a with byBld := false } }
  let s := s.thu.arcs.foldl (fun s a => if a.phase = .reseating then s else startReseat a false s) s
  commandPairs (completeArcs s)

end Sys2Proof.Machine
end

