-- ==== Sys2Proof/Machine/Build.lean ====
section
/-! DEFINITION. Build Unit: the plan, its steps, its faults and the erector (chapter 6). -/

namespace Sys2Proof.Machine

/-- N_seg: the number of segments in a ring, 0 while the geometry record is UNSET. -/
def segmentCount (s : State) : Nat := (s.geometry.map Geometry.segmentsPerRing).getD 0

/-- The segments recorded in the open ring. -/
def segmentsPlaced (s : State) : Nat := s.rgu.current.segments.length

/-- The step entry at the current slot. -/
def Bld.step (b : Bld) : PlanStep := b.table[b.slot]

/-- BLD sets the plan state and tells MDU when it enters or leaves RUNNING and WAITING (R113). -/
def setPlan (p : PlanState) (s : State) : State := tellPlan p.busy (s.onBld fun b => { b with plan := p })

/-- The step in flight is RUNNING or WAITING; a PAUSED plan stays PAUSED (R113, R127). -/
def setActivity (p : PlanState) (s : State) : State :=
  match s.bld.plan with
  | .paused _ => s
  | .idle => setPlan p s | .running => setPlan p s | .waiting => setPlan p s
  | .complete => setPlan p s | .faulted _ => setPlan p s

/-- What the step in flight makes of the plan: RUNNING with an operation of its own, WAITING otherwise
(section 6.2). -/
def Flight.activity : Flight → PlanState
  | .none => .running
  | .erector _ => .running
  | .release _ => .running
  | .reseat _ => .running
  | .orphan => .waiting
  | .admission => .waiting
  | .background => .waiting
  | .stroke => .waiting
  | .arcs => .waiting

/-- The step in flight now waits for this. -/
def setFlight (f : Flight) (s : State) : State :=
  setActivity f.activity (s.onBld fun b => { b with flight := f })

/-- The step timer starts: the step's timeout, or step_timeout when it is 0 (R116). -/
def startStepTimer (s : State) : State :=
  s.onBld fun b =>
    { b with stepTimer := s.after (if b.step.timeout = 0 then s.profile.stepTimeout else b.step.timeout) }

/-- The step stays in flight: its timer starts and it waits for this (R115, R116). -/
def stay (f : Flight) (s : State) : State := setFlight f (startStepTimer s)

/-- Change the plan arc with an identifier. -/
def onPlanArc (id : Nat) (f : PlanArc → PlanArc) (s : State) : State :=
  s.onBld fun b => { b with arcs := b.arcs.map fun a => if a.id = id then f a else a }

/-- BLD asks THU to reseat a plan arc and sets its phase to RESEATING (R121, R129, R132). -/
def reseatPlanArc (id : Nat) (s : State) : State :=
  requestReseat id (onPlanArc id (fun a => { a with phase := .reseating }) s)

/-! ## Faults (R129) -/

/-- BUILD_FAULT: the cause, the slot, the step's kind, the stack depth and the held segment (R129). With no step
in flight the kind is that of the entry at the current slot (log 19). -/
def noticeFault (cause : PlanFault) (s : State) : State :=
  let b := s.bld
  notify .buildFault [u1 cause.code, u1 b.slot, u1 b.step.kind.code, u1 b.stack.length, opt 1 (b.held.map SegKind.code)] s

/-- The plan faults (R129). -/
def planFault (cause : PlanFault) (s : State) : State :=
  let s := if s.bld.flight = .admission then cancelWaiting s else s
  let s := s.onBld fun b =>
    { b with
      orphan := match b.flight with
        | .erector op => some op
        | .none => b.orphan | .orphan => b.orphan | .admission => b.orphan | .release _ => b.orphan
        | .background => b.orphan | .reseat _ => b.orphan | .stroke => b.orphan | .arcs => b.orphan,
      stepTimer := .stopped, flight := .none, command := .hold, background := none }
  let s := s.bld.arcs.foldl (fun s a => if a.phase = .reseating then s else reseatPlanArc a.id s) s
  noticeFault cause (setPlan (.faulted cause) s)

/-! ## Erector operations (R117 to R119) -/

/-- The next operation number: 1 to 255, wrapping from 255 to 1 (R117). -/
def nextNumber (n : Nat) : Nat := if n ≥ 255 then 1 else n + 1

/-- The ERECTOR command of an operation (R117). -/
def ErectorWork.action : ErectorWork → ErectorAction
  | .pick k => .pick k
  | .place k start width _ => .place k start width

/-- BLD begins an operation, and the plan is RUNNING (R117, R118, R119). -/
def beginOperation (w : ErectorWork) (s : State) : State :=
  let number := nextNumber s.bld.opNumber
  setFlight (.erector { number, work := w }) (s.onBld fun b => { b with opNumber := number, command := w.action })

/-- The checks of RING_FULL and KEY_ORDER for a segment kind (R119, R133). -/
def listCheck (s : State) (k : SegKind) : Option PlanFault :=
  if segmentCount s ≤ segmentsPlaced s then some .ringFull
  else if (k == .key) == decide (segmentsPlaced s + 1 = segmentCount s) then none
  else some .keyOrder

/-- The most recent plan arc in phase WITHDRAWN whose segment is none (R119). -/
def freeArc (b : Bld) : Option PlanArc := b.arcs.reverse.find? fun a => a.phase == .withdrawn && !a.placed

/-- The four checks of PLACE, in turn: the operation, or the cause of the first to fail (R119). -/
def placeCheck (s : State) : Except PlanFault ErectorWork :=
  match s.bld.held, freeArc s.bld with
  | none, _ => .error .nothingHeld
  | some _, none => .error .noArc
  | some k, some a =>
    match listCheck s k with
    | some cause => .error cause
    | none => .ok (.place k a.start a.width a.id)

/-- The operation of a PICK, or its fault with a segment held (R118). -/
def pickCheck (s : State) : Except PlanFault ErectorWork :=
  if s.bld.held.isSome then .error .segmentHeld else .ok (.pick s.bld.step.segment)

/-- A PICK or PLACE whose checks have been made: it faults, waits for the orphan, or begins (R118, R119). The
timer is started at the issue only. -/
def startErector (atIssue : Bool) (check : Except PlanFault ErectorWork) (s : State) : State :=
  match check with
  | .error cause => planFault cause s
  | .ok w =>
    let s := if atIssue then startStepTimer s else s
    if s.bld.orphan.isSome then setFlight .orphan s else beginOperation w s

/-! ## Issuing steps (R115, R118 to R126) -/

/-- What a step did at its issue: it completed with this next slot, or it stays (in flight, or ended by a
fault or END). -/
inductive Issued where
  | completes (next : Nat)
  | stays
  deriving DecidableEq, Repr

/-- The arc of a RESEAT: the last placed arc, if it is a plan arc not yet RESEATING (R121). -/
def reseatArc (b : Bld) : Option Nat :=
  match b.lastPlaced with
  | none => none
  | some id => if b.arcs.any (fun a => a.id == id && a.phase != .reseating) then some id else none

/-- BLD asks for the reseat of a RESEAT step: with overlap off the step runs until it is complete, with overlap
on the arc becomes the background reseat, which is over at once if THU has no pair of it to wait for (R121,
R122). -/
def goReseat (id : Nat) (s : State) : State :=
  if s.bld.step.overlap then reseatPlanArc id (s.onBld fun b => { b with background := some id })
  else setFlight (.reseat id) (reseatPlanArc id s)

/-- END with no plan arc left: the count is compared, and the plan is COMPLETE or faults (R126). -/
def finishEnd (s : State) : State :=
  if segmentsPlaced s = segmentCount s then
    let s := setPlan .complete (s.onBld fun b => { b with flight := .none, stepTimer := .stopped })
    setBuildDone (notify .buildDone [u2 s.rgu.current.number, u1 (segmentsPlaced s)] s)
  else planFault .buildIncomplete s

/-- The issue of a PICK (R118). -/
def issuePick (s : State) : Issued × State := (.stays, startErector true (pickCheck s) s)

/-- The issue of a PLACE (R119). -/
def issuePlace (s : State) : Issued × State := (.stays, startErector true (placeCheck s) s)

/-- The plan arc of a grant (R120). -/
def addPlanArc (id start width : Nat) (phase : ArcPhase) (s : State) : State :=
  s.onBld fun b => { b with arcs := b.arcs ++ [{ id, start, width, phase, placed := false }] }

/-- The issue of a WITHDRAW (R120). -/
def issueWithdraw (s : State) : Issued × State :=
  let step := s.bld.step
  let r : ArcRequest := { start := (s.bld.base + step.position) % 16, width := step.width }
  match arcAnswer r s with
  | .busy => (.stays, planFault .arcBusy s)
  | .waits => (.stays, stay .admission (requestArc r s))
  | .granted id true => (.completes (s.bld.slot + 1), addPlanArc id r.start r.width .withdrawn (requestArc r s))
  | .granted id false => (.stays, stay (.release id) (addPlanArc id r.start r.width .withdrawing (requestArc r s)))

/-- The issue of a RESEAT (R121). -/
def issueReseat (s : State) : Issued × State :=
  match reseatArc s.bld with
  | none => (.stays, planFault .noArc s)
  | some id =>
    if s.bld.background.isSome then (.stays, stay .background s)
    else if s.bld.step.overlap then (.completes (s.bld.slot + 1), goReseat id s)
    else (.stays, goReseat id (startStepTimer s))

/-- The issue of an AWAIT_STROKE (R123). -/
def issueAwait (s : State) : Issued × State :=
  if s.bld.step.stroke ≤ s.adv.stroke then (.completes (s.bld.slot + 1), s) else (.stays, stay .stroke s)

/-- The issue of a CALL (R124). -/
def issueCall (s : State) : Issued × State :=
  if Config.stackCapacity ≤ s.bld.stack.length then (.stays, planFault .stackFull s)
  else
    (.completes s.bld.step.target, s.onBld fun b =>
      { b with stack := { slot := b.slot + 1, base := b.base } :: b.stack,
               base := (b.base + b.step.position) % 16 })

/-- The issue of a RETURN (R124). -/
def issueReturn (s : State) : Issued × State :=
  match s.bld.stack with
  | [] => (.stays, planFault .stackEmpty s)
  | f :: fs => (.completes f.slot, s.onBld fun b => { b with stack := fs, base := f.base })

/-- The issue of an END (R126). One that ends the plan at its issue is not counted in the chain of R115 (log 18). -/
def issueEnd (s : State) : Issued × State :=
  (.stays, if s.bld.arcs = [] then finishEnd s else stay .arcs s)

/-- BLD issues the step at the current slot (R115). -/
def issueStep (s : State) : Issued × State :=
  let s := s.onBld fun b => { b with stepTimer := .stopped, flight := .none }
  match s.bld.step.kind with
  | .pick => issuePick s
  | .withdraw => issueWithdraw s
  | .place => issuePlace s
  | .reseat => issueReseat s
  | .awaitStroke => issueAwait s
  | .call => issueCall s
  | .ret => issueReturn s
  | .dispatch => (.completes (s.bld.step.target + s.bld.outcome), s)
  | .endPlan => issueEnd s

/-- BLD carries out steps until one stays. Every step that completes at issue is counted; the 128th faults the
plan with PLAN_LOOP (R115). The fuel is never short: the count bounds it. -/
def runSteps : Nat → State → State
  | 0, s => s
  | fuel + 1, s =>
    match issueStep s with
    | (.stays, s) => s
    | (.completes next, s) =>
      let s := s.onBld fun b => { b with loopCount := b.loopCount + 1 }
      if Config.chainLimit ≤ s.bld.loopCount then planFault .planLoop s
      else if h : next < 128 then runSteps fuel (s.onBld fun b => { b with slot := ⟨next, h⟩ })
      else planFault .planRange s

/-- BLD issues the step at the current slot and those that follow it within the event (R115). -/
def issue (s : State) : State := runSteps (Config.chainLimit + 1) s

/-- The step in flight completes at a later event: the plan goes on at the next slot, or stays there while
PAUSED (R115, R127). -/
def completeStep (s : State) : State :=
  let s := s.onBld fun b => { b with stepTimer := .stopped, flight := .none }
  if h : s.bld.slot.val + 1 < 128 then
    let s := s.onBld fun b => { b with slot := ⟨s.bld.slot.val + 1, h⟩ }
    if s.bld.plan.busy then issue s else s
  else planFault .planRange s

/-! ## Erector reports (R117, R131) -/

/-- The completion of a PICK (R118). -/
def completePick (kind : SegKind) (r : ErectorResult) (s : State) : State :=
  match r with
  | .pickOk => completeStep (s.onBld fun b => { b with held := some kind, outcome := 0 })
  | .pickRejected => completeStep (s.onBld fun b => { b with held := none, outcome := 2 })
  | .placed => planFault .erectorStopped (s.onBld fun b => { b with flight := .none })
  | .placedOffset => planFault .erectorStopped (s.onBld fun b => { b with flight := .none })
  | .placeRetry => planFault .erectorStopped (s.onBld fun b => { b with flight := .none })
  | .stopped => planFault .erectorStopped (s.onBld fun b => { b with flight := .none })

/-- A segment placed by the plan is recorded (R119, R140). -/
def recordPlaced (kind : SegKind) (start width arc : Nat) (o : SegOutcome) (outcome : Nat) (s : State) : State :=
  let s := markPlaced arc (appendSegment kind start width o s)
  (onPlanArc arc (fun a => { a with placed := true }) s).onBld fun b =>
    { b with lastPlaced := some arc, held := none, outcome }

/-- The completion of a PLACE (R119). -/
def completePlace (kind : SegKind) (start width arc : Nat) (r : ErectorResult) (s : State) : State :=
  match r with
  | .placed => completeStep (recordPlaced kind start width arc .placed 0 s)
  | .placedOffset => completeStep (recordPlaced kind start width arc .placedOffset 1 s)
  | .placeRetry => completeStep (s.onBld fun b => { b with outcome := 3 })
  | .pickOk => planFault .erectorStopped (s.onBld fun b => { b with flight := .none })
  | .pickRejected => planFault .erectorStopped (s.onBld fun b => { b with flight := .none })
  | .stopped => planFault .erectorStopped (s.onBld fun b => { b with flight := .none })

/-- The segment kind, start pair and width of an operation; a PICK has no start pair and width, sent as 0
(R131, R188). -/
def ErectorWork.segment : ErectorWork → SegKind × Nat × Nat
  | .pick k => (k, 0, 0)
  | .place k start width _ => (k, start, width)

/-- SEGMENT_UNRECORDED (R131). -/
def noticeUnrecorded (w : ErectorWork) (r : ErectorResult) (s : State) : State :=
  notify .segmentUnrecorded
    [u2 s.rgu.current.number, u1 w.segment.1.code, u1 w.segment.2.1, u1 w.segment.2.2, u1 r.code] s

/-- What the orphan operation's end says the erector did (R131). -/
def orphanEffect (op : Operation) (r : ErectorResult) (s : State) : State :=
  match r with
  | .placed => noticeUnrecorded op.work r (s.onBld fun b => { b with held := none })
  | .placedOffset => noticeUnrecorded op.work r (s.onBld fun b => { b with held := none })
  | .pickOk => s.onBld fun b => { b with held := some op.work.segment.1 }
  | .pickRejected => s.onBld fun b => { b with held := none }
  | .placeRetry => s
  | .stopped => s

/-- The orphan operation ends; a PICK or PLACE waiting for it then proceeds (R118, R119, R131). -/
def endOrphan (op : Operation) (r : ErectorResult) (s : State) : State :=
  let s := orphanEffect op r (s.onBld fun b => { b with orphan := none })
  if s.bld.flight = .orphan then
    if s.bld.step.kind = .place then startErector false (placeCheck s) s else startErector false (pickCheck s) s
  else s

/-- An ended operation is that of the step in flight: its completion (R117). -/
def endOperation (number : Nat) (r : ErectorResult) (s : State) : State :=
  match s.bld.flight with
  | .erector op =>
    if op.number = number then
      match op.work with
      | .pick k => completePick k r s
      | .place k start width arc => completePlace k start width arc r s
    else s
  | .none => s | .orphan => s | .admission => s | .release _ => s | .background => s | .reseat _ => s
  | .stroke => s | .arcs => s

/-- BLD takes an ERECTOR report (R117, R131). -/
def takeErector (r : ErectorReport) (s : State) : State :=
  match r.result, s.bld.orphan with
  | none, _ => s
  | some res, none => endOperation r.number res s
  | some res, some op => if op.number = r.number then endOrphan op res s else endOperation r.number res s

/-! ## THU's words (R120 to R122, R126, R132) -/

/-- THU grants an arc (R120, R132). -/
def takeGrant (id start width : Nat) (s : State) : State :=
  let s := addPlanArc id start width .withdrawing s
  if s.bld.flight = .admission then setFlight (.release id) s else reseatPlanArc id s

/-- THU tells that an arc is withdrawn (R120, R132). -/
def takeWithdrawn (id : Nat) (s : State) : State :=
  let s := onPlanArc id (fun a => { a with phase := .withdrawn }) s
  if s.bld.flight = .release id then completeStep s else s

/-- A RESEAT that waited for the background reseat proceeds (R121, R122). -/
def proceedReseat (s : State) : State :=
  match reseatArc s.bld with
  | none => planFault .noArc s
  | some id =>
    let s := goReseat id s
    if s.bld.step.overlap then completeStep s else s

/-- THU has told that an arc's reseat is complete: a step that waits for it proceeds (R121, R122, R126). BLD's
records of the arc went with the telling (`tellReseated`). -/
def takeReseated (id : Nat) (s : State) : State :=
  match s.bld.flight with
  | .reseat arc => if arc = id then completeStep s else s
  | .background => if s.bld.background.isNone then proceedReseat s else s
  | .arcs => if s.bld.arcs = [] then finishEnd s else s
  | .none => s | .erector _ => s | .orphan => s | .admission => s | .release _ => s | .stroke => s

/-- BLD takes a word of THU. -/
def takeWord (w : ArcWord) (s : State) : State :=
  match w with
  | .granted id start width => takeGrant id start width s
  | .withdrawn id => takeWithdrawn id s
  | .releaseTimeout id => if s.bld.flight = .release id then planFault .releaseTimeout s else s
  | .reseatDone id => takeReseated id s
  | .reseatTimeout id =>
    if s.bld.flight = .reseat id ∨ s.bld.background = some id then planFault .reseatTimeout s else s

/-- BLD takes THU's words, in order. The fuel bounds the words that one event can raise: each grants,
withdraws or reseats one of two arcs. -/
def takeWords : Nat → State → State
  | 0, s => s
  | fuel + 1, s =>
    match s.bld.inbox with
    | [] => s
    | w :: ws => takeWords fuel (takeWord w (s.onBld fun b => { b with inbox := ws }))

/-- More than the words that one event can raise. -/
abbrev wordFuel : Nat := 64

/-- An event reaches the plan: the loop count starts at 0, and THU's words are taken within the event
(R115). -/
def planEvent (f : State → State) (s : State) : State :=
  takeWords wordFuel (f (s.onBld fun b => { b with loopCount := 0 }))

/-- An event at THU, whose words reach the plan within it. -/
def afterThrust (s : State) : State := if s.bld.inbox = [] then s else planEvent id s

/-! ## Events of the plan -/

/-- BLD takes an ERECTOR report as one event (R117). -/
def erectorReport (r : ErectorReport) (s : State) : State := planEvent (takeErector r) s

/-- BLD tests the stroke at a credited pulse (R123). -/
def strokeTest (s : State) : State :=
  if s.bld.flight = .stroke ∧ s.bld.step.stroke ≤ s.adv.stroke then planEvent completeStep s else s

/-- An accepted BUILD_START: the first step is issued (R114). The plan enters RUNNING before that issue, so MDU is told
so even if the issue faults the plan or completes it (log 18). -/
def startPlan (slot : Fin 128) (s : State) : State :=
  let s := s.onBld fun b => { b with base := 0, stack := [], outcome := 0, lastPlaced := none, slot }
  planEvent issue (setPlan .running s)

/-- Expiry of the step timer (R116). -/
def stepExpiry (s : State) : State :=
  planEvent (planFault (if s.bld.flight = .admission then .arcTimeout else .stepTimeout)) s

/-- An active plan faults with this cause; a plan that is not active is left as it is (R130). -/
def faultActive (cause : PlanFault) (s : State) : State :=
  if s.bld.plan.active then planEvent (planFault cause) s else s

/-- The plan is PAUSED with this cause (R127). -/
def pausePlan (c : PauseCause) (s : State) : State := setPlan (.paused c) s

/-- An accepted BUILD_RESUME (R128). With no step in flight the plan enters RUNNING before the issue, so MDU is told so
even if the issue faults the plan or completes it (log 18). -/
def resumePlan (s : State) : State :=
  let s := setPlan s.bld.flight.activity s
  if s.bld.flight = .none then planEvent issue s else s

/-- BLD takes a change of the machine mode (R127, R130). -/
def buildMode (mode : Mode) (s : State) : State :=
  match mode with
  | .standby => faultActive .modeStandby s
  | .halted => if s.bld.plan.active then pausePlan .halt s else s
  | .ready => s | .boring => s | .standstill => s

/-- BLD takes the host restart (R136). -/
def buildRestart (s : State) : State :=
  let s := s.onBld fun b =>
    { b with
      orphan := match b.flight with
        | .erector op => some op
        | .none => b.orphan | .orphan => b.orphan | .admission => b.orphan | .release _ => b.orphan
        | .background => b.orphan | .reseat _ => b.orphan | .stroke => b.orphan | .arcs => b.orphan,
      stepTimer := .stopped, flight := .none, stack := [], base := 0, outcome := 0, slot := 0,
      lastPlaced := none, background := none, arcs := [], command := .hold, inbox := [] }
  setPlan .idle s

end Sys2Proof.Machine
end

