-- ==== Sys2Proof/Machine/Cutterhead.lean ====
section
/-! DEFINITION. Cutterhead Unit: ramps, the load index, the envelope zone and stall (chapter 3). What posts a
halt cause is in Jobs.lean. -/

namespace Sys2Proof.Machine

/-- CHU sets the drive state and tells MDU when it enters or leaves STOPPED (R45). -/
def setDrive (d : DriveState) (s : State) : State :=
  tellDrive (d == .stopped) (s.onChu fun c => { c with drive := d })

/-! ## Ramps and the setpoint (R46) -/

/-- The origin moved toward the target by ramp_rate times the time elapsed, truncated to a whole speed unit,
and no further than the target (R46). An origin above 600 gives a speed above the 600 of R188 (log 22). -/
def rampSpeed (origin target rate elapsed : Nat) : Nat :=
  if origin ≤ target then min target (origin + rate * elapsed / Config.millis)
  else max target ((origin * Config.millis - rate * elapsed) / Config.millis)

/-- The speed setpoint that the drive state and a ramp at `rate` give (R46). -/
def setpointAt (c : Chu) (rate now : Nat) : Nat :=
  match c.drive with
  | .turning => c.applied
  | .stopped => 0
  | .stalled => 0
  | .ramping => rampSpeed c.rampOrigin c.applied rate (now - c.rampStart)
  | .reversing => rampSpeed c.rampOrigin 0 rate (now - c.rampStart)

/-- The setpoint sent to the drive: 0 while the geometry record is UNSET (R46, R52). -/
def setpoint (s : State) : Nat := if s.geometry.isSome then setpointAt s.chu s.profile.rampRate s.now else 0

/-- The origin of a ramp: the speed of the last report if its direction is the commanded one, else 0 (R46). A reported
speed above 600 is taken as it stands (log 22). -/
def rampFrom (c : Chu) : Nat :=
  match c.last with
  | some r => if r.direction = c.direction then r.speed else 0
  | none => 0

/-- A ramp starts from a new origin (R46). -/
def startRamp (d : DriveState) (s : State) : State :=
  setDrive d (s.onChu fun c => { c with rampOrigin := rampFrom c, rampStart := s.now })

/-! ## The applied target (R44, R47) -/

/-- What a change of the applied target or of the host direction does to the drive (R47). -/
def retarget (s : State) : State :=
  let c := s.chu
  match c.drive with
  | .stopped =>
    if c.applied = 0 then s else startRamp .ramping (s.onChu fun c => { c with direction := c.hostDir })
  | .ramping =>
    if c.applied = 0 ∨ c.hostDir = c.direction then startRamp .ramping s else startRamp .reversing s
  | .turning =>
    if c.applied = 0 ∨ c.hostDir = c.direction then startRamp .ramping s else startRamp .reversing s
  | .reversing =>
    if c.applied = 0 then setDrive .ramping s
    else if c.hostDir = c.direction then startRamp .ramping s
    else s
  | .stalled => s

/-- The applied target: the host target's speed, capped in the envelope zone (R44). -/
def appliedTarget (s : State) : Nat :=
  if s.chu.zone then min s.chu.hostSpeed s.profile.zoneSpeedCap else s.chu.hostSpeed

/-- CHU takes a host target and recomputes the applied target; a change of it, or of the host direction, acts
on the drive (R43, R44, R47). -/
def setHostTarget (speed : Nat) (dir : Direction) (s : State) : State :=
  let old := s.chu
  let s := s.onChu fun c => { c with hostSpeed := speed, hostDir := dir }
  let s := s.onChu fun c => { c with applied := appliedTarget s }
  if s.chu.applied = old.applied ∧ s.chu.hostDir = old.hostDir then s else retarget s

/-- CHU recomputes the applied target for the host target it holds (R44). -/
def reapply (s : State) : State := setHostTarget s.chu.hostSpeed s.chu.hostDir s

/-! ## Stall (R55) -/

/-- CHU evaluates the stall condition against the last report (R55). -/
def evalStall (s : State) : State :=
  if s.chu.drive = .stalled ∨ s.chu.last = none then s
  else if stallCondition s.chu then
    match s.chu.stallTimer with
    | .stopped => s.onChu fun c => { c with stallTimer := s.after s.profile.tStall }
    | .running _ => s
  else s.onChu fun c => { c with stallTimer := .stopped }

/-! ## The torque ceiling, the zone and the trip condition (R51 to R53) -/

/-- The torque ceiling for the zone flag: 0 while the geometry record is UNSET (R52). -/
def torqueCeiling (s : State) : Nat :=
  match s.geometry with
  | some g => g.ratedTorque * (if s.chu.zone then s.profile.throttlePct else s.profile.ceilingPct) / 100
  | none => 0

/-- CHU recomputes the torque ceiling (R52). -/
def setCeiling (s : State) : State := s.onChu fun c => { c with ceiling := torqueCeiling s }

/-- ENVELOPE: its mark, H, the applied target and the torque ceiling (R51). -/
def noticeEnvelope (entry : Bool) (s : State) : State :=
  notify .envelope
    [.raw [Config.envelopeMarkByte entry], u2 s.chu.loadIndex, u2 s.chu.applied, u2 s.chu.ceiling] s

/-- The zone test (R51). -/
def zoneTest (s : State) : State :=
  if !s.chu.zone && decide (s.profile.hHigh ≤ s.chu.loadIndex) then
    let s := reapply (setCeiling (s.onChu fun c => { c with zone := true }))
    flagOpen (fun f => { f with envelopeEntered := true }) (noticeEnvelope true s)
  else if s.chu.zone && decide (s.chu.loadIndex ≤ s.profile.hLow) then
    noticeEnvelope false (reapply (setCeiling (s.onChu fun c => { c with zone := false })))
  else s

/-- H is at or above H_trip (R53). -/
def tripDue (s : State) : Bool := decide (s.profile.hTrip ≤ s.chu.loadIndex)

/-- While LOAD_TRIP is in the halt-cause set CHU follows the trip condition and tells MDU of each change
(R53). -/
def followTrip (s : State) : State :=
  let present := decide (s.profile.hLow < s.chu.loadIndex)
  if haltMember s.mdu .loadTrip ∧ present ≠ s.chu.trip then
    markHalt .loadTrip (!present) (s.onChu fun c => { c with trip := present })
  else s

/-! ## Reports (R42, R48 to R50) -/

/-- L: the relative torque in percent of rated, clamped to 200 (R50). -/
def relativeTorque (torque rated : Nat) : Nat := min 200 (torque * 100 / rated)

/-- H after a report with the given L (R50). -/
def nextLoadIndex (h l k : Nat) : Nat := ((h : Int) + (((l * l : Nat) : Int) - h).tdiv k).toNat

/-- CHU updates the load index and makes the zone and trip tests; nothing while the geometry record is UNSET
(R50, R51, R53). -/
def updateLoad (torque : Nat) (s : State) : State :=
  match s.geometry with
  | none => s.onChu fun c => { c with loadRatio := none }
  | some g =>
    let l := relativeTorque torque g.ratedTorque
    followTrip (zoneTest (s.onChu fun c =>
      { c with loadRatio := some l, loadIndex := nextLoadIndex c.loadIndex l s.profile.k }))

/-- The drive transitions that a report completes: a ramp (R48), or the turn at zero of a reversal (R49). -/
def driveTransition (r : DriveReport) (s : State) : State :=
  match s.chu.drive with
  | .ramping =>
    if reachesTarget s.chu r then setDrive (if s.chu.applied = 0 then .stopped else .turning) s else s
  | .reversing =>
    if r.speed = 0 ∧ 0 < s.chu.applied then
      setDrive .ramping (s.onChu fun c => { c with direction := c.hostDir, rampOrigin := 0, rampStart := s.now })
    else s
  | .stopped => s | .turning => s | .stalled => s

/-- CHU takes a DRIVE report as one event (R42). The posting of LOAD_TRIP is made by the caller. -/
def driveReport (r : DriveReport) (s : State) : State :=
  evalStall (driveTransition r (updateLoad r.torque (s.onChu fun c => { c with last := some r })))

/-- A report has made a trip test that calls for LOAD_TRIP (R50, R53). -/
def reportTrips (s : State) : Bool := s.geometry.isSome && tripDue s

/-! ## Other events -/

/-- The drive comes to STOPPED at once, with its ramp and stall timer cancelled and both targets 0 (R57,
R60). -/
def stopDrive (s : State) : State :=
  setDrive .stopped (s.onChu fun c => { c with hostSpeed := 0, applied := 0, stallTimer := .stopped })

/-- The stall timer runs out: STALLED, with setpoint 0 at once (R56). The posting of STALL is made by the
caller. -/
def stallDrive (s : State) : State := setDrive .stalled (s.onChu fun c => { c with stallTimer := .stopped })

/-- STALL has left the halt-cause set: a STALLED drive returns to STOPPED (R56). -/
def releaseStall (s : State) : State := if s.chu.drive = .stalled then setDrive .stopped s else s

/-- CHU takes a change of the machine mode: the host target's speed goes to 0 but in BORING (R44, R45). -/
def cutterMode (mode : Mode) (s : State) : State :=
  evalStall (if mode = .boring then reapply s else setHostTarget 0 s.chu.hostDir s)

/-- A running ramp starts anew from the setpoint as it stands under the old rate (R46, R54). -/
def restartRamp (oldRate : Nat) (s : State) : State :=
  match s.chu.drive with
  | .ramping => s.onChu fun c => { c with rampOrigin := setpointAt c oldRate s.now, rampStart := s.now }
  | .reversing => s.onChu fun c => { c with rampOrigin := setpointAt c oldRate s.now, rampStart := s.now }
  | .stopped => s | .turning => s | .stalled => s

/-- CHU takes up a profile activation: `old` is the profile before it (R54). The posting of LOAD_TRIP is made by
the caller. R54 gives its parts no order: the ramp, the zone, the trip condition, the ceiling, then the cap of a zone
still active (log 22). -/
def cutterProfile (old : Profile) (s : State) : State :=
  let p := s.profile
  let s := if old.rampRate = p.rampRate then s else restartRamp old.rampRate s
  let s := if old.hHigh = p.hHigh ∧ old.hLow = p.hLow then s else zoneTest s
  let s := if old.hLow = p.hLow then s else followTrip s
  let s := if old.ceilingPct = p.ceilingPct ∧ old.throttlePct = p.throttlePct then s else setCeiling s
  let s := if s.chu.zone = true ∧ old.zoneSpeedCap ≠ p.zoneSpeedCap then reapply s else s
  evalStall s

/-- CHU takes an accepted geometry record: the ceiling is recomputed (R52, R54). -/
def cutterGeometry (s : State) : State := evalStall (setCeiling s)

end Sys2Proof.Machine
end

