-- ==== Sys2Proof/Machine/Mode.lean ====
section
/-! DEFINITION. Mode Unit and Profile Store: changes of mode, halts and profile activations, and how the units
take them up (chapters 8 and 9).

Raising a halt is this block's nearest thing to taking an exception: one shared operation, `postHalt`. -/

namespace Sys2Proof.Machine

/-! ## Changes of mode (R163, R165) -/

/-- MODE_CHANGED: the new mode, the previous one, the cause and both sets (R163). -/
def noticeMode (cause : ModeCause) (s : State) : State :=
  notify .modeChanged
    [u1 s.mdu.mode.code, u1 s.mdu.previous.code, .raw [cause.byte], .raw [holdsByte s.mdu.holds],
     .raw [haltsByte s.mdu.halts, marksByte s.mdu.halts]] s

/-- MDU changes the mode: the previous mode, HALT-OUT, the permission, the notice and the standstill timer
(R163, R165, R172). -/
def setMode (mode : Mode) (cause : ModeCause) (s : State) : State :=
  let s := s.onMdu fun m => { m with mode := mode, previous := m.mode, haltOut := mode == .halted }
  evalStandstill (noticeMode cause (decidePermission s))

/-- Every unit takes up a change of mode; PFS's part and the halt causes posted again are taken by the callers
(R163). -/
def takeMode (previous : Mode) (s : State) : State :=
  let mode := s.mdu.mode
  let s := advanceMode previous mode s
  let s := thrustMode previous mode s
  let s := cutterMode mode s
  let s := faceMode previous mode s
  let s := groutMode previous mode s
  buildMode mode s

/-! ## Halts (R167, R168) -/

/-- The removable mark of a cause at its addition (R168). -/
def HaltCause.markAtAddition : HaltCause → Bool
  | .stall => true | .overExcavation => true | .hostStop => true
  | .loadTrip => false | .rollbackLimit => false | .driveLost => false | .faceBlind => false | .faceUnder => false

/-- HALT_RAISED: the cause, its removable mark, the set after the addition and the mode (R167). -/
def noticeHalt (c : HaltCause) (s : State) : State :=
  notify .haltRaised
    [u1 c.index, fl c.markAtAddition, .raw [haltsByte s.mdu.halts, marksByte s.mdu.halts], u1 s.mdu.mode.code] s

/-- MDU adds a cause with its mark; CHU's trip condition is present when LOAD_TRIP is added (R53, R168). -/
def addHalt (c : HaltCause) (s : State) : State :=
  let s := s.onMdu fun m => { m with halts := m.halts.set c.index (some c.markAtAddition) }
  if c = .loadTrip then s.onChu fun u => { u with trip := true } else s

/-- MDU takes a posting by the mode in force, without PFS's part (R167). -/
def raiseHalt (c : HaltCause) (s : State) : State :=
  match s.mdu.mode with
  | .standby => s
  | .halted => if haltMember s.mdu c then s else noticeHalt c (addHalt c s)
  | .ready => takeMode .ready (noticeHalt c (setMode .halted (.halt c) (addHalt c s)))
  | .boring => takeMode .boring (noticeHalt c (setMode .halted (.halt c) (addHalt c s)))
  | .standstill => takeMode .standstill (noticeHalt c (setMode .halted (.halt c) (addHalt c s)))

/-! ## Profile activation (R15, R16, R156 to R158) -/

/-- PFS activates a profile: one event, then each unit takes the new values up (R158). A LOAD_TRIP that a lower H_trip
brings (R53) is posted when THU, CHU, FCU and GRU have taken the profile and before ADV's immediate step (log 5). -/
def activate (p : ProfileName) (s : State) : State :=
  let old := s.profile
  let previous := s.pfs.active
  let s := recordActivation p (s.onPfs fun f => { f with active := p, next := none })
  let s := notify .profileActive [u1 p.index, u1 previous.index, u2 s.adv.serial, u2 s.rgu.current.number] s
  let s := afterThrust (thrustProfile old s)
  let s := cutterProfile old s
  let s := faceProfile old s
  let s := groutProfile old s
  let outside := s.mdu.mode != .boring
  let s := if s.profile.hTrip < old.hTrip ∧ tripDue s = true then raiseHalt .loadTrip s else s
  if outside = true ∧ s.profile.quantum ≤ s.adv.acc then advanceStep s.adv.acc s else s

/-- PFS activates the pending profile, if any (R156, R157). -/
def activatePending (s : State) : State :=
  match s.pfs.next with
  | some p => activate p s
  | none => s

/-- A change of mode out of BORING activates a pending profile (R157). -/
def leaveBoring (previous : Mode) (s : State) : State :=
  if previous = .boring ∧ s.mdu.mode ≠ .boring then activatePending s else s

/-! ## Posting a halt and changing the mode -/

/-- A unit posts a halt cause to MDU (R157, R167). -/
def postHalt (c : HaltCause) (s : State) : State := leaveBoring s.mdu.mode (raiseHalt c s)

/-- A unit posts a halt cause if its condition holds. -/
def postHaltIf (condition : Bool) (c : HaltCause) (s : State) : State := if condition then postHalt c s else s

/-- The halt causes that still stand are posted again on entering READY from STANDBY: ROLLBACK_LIMIT (R17),
LOAD_TRIP (R53), FACE_BLIND and FACE_UNDER (R81). -/
def repostHalts (s : State) : State :=
  let s := postHaltIf (rollbackDue s) .rollbackLimit s
  let s := postHaltIf (tripDue s) .loadTrip s
  let s := postHaltIf (faceBlind s) .faceBlind s
  postHaltIf (s.fcu.under == .posted) .faceUnder s

/-- MDU changes the mode and every unit takes it up (R163). -/
def changeMode (mode : Mode) (cause : ModeCause) (s : State) : State :=
  let previous := s.mdu.mode
  let s := leaveBoring previous (takeMode previous (setMode mode cause s))
  if previous = .standby ∧ mode = .ready then repostHalts s else s

/-- MDU takes a break event: STANDSTILL returns to BORING, any other mode stays (R174). -/
def breakEvent (kind : Nat) (s : State) : State :=
  if s.mdu.mode = .standstill then changeMode .boring (.breakEvent kind) s else s

/-! ## Emptying the sets (R162, R164, R176) -/

/-- HOLD_CHANGED for the emptying of the set: every reason removed, the set after it and the permission
(R164). -/
def noticeEmptied (removed : Vector Bool 8) (s : State) : State :=
  if holdsEmpty removed then s
  else
    notify .holdChanged
      [.raw (Config.holdsRemovedBytes (holdsByte removed)), .raw [holdsByte s.mdu.holds],
       u1 (permissionCode s.mdu.permitted)] s

/-- Both sets are emptied and the mode becomes STANDBY, in one event: outputs, notices, and the words to CHU and
GRU that the emptying brings (R56, R106, R162, R164, R176). MODE_CHANGED carries both sets empty, HOLD_CHANGED tells
of the emptying, and GROUT_NONE posted again comes after both (R176; for SET_MODE(STANDBY) log 4). The units take up
the mode afterwards. -/
def enterStandby (cause : ModeCause) (s : State) : State :=
  let m := s.mdu
  let s := s.onMdu fun m =>
    { m with holds := Vector.replicate 8 false, halts := Vector.replicate 8 none, mode := .standby,
             previous := if m.mode = .standby then m.previous else m.mode, haltOut := false }
  let s := decidePermission s
  let s := if m.mode = .standby then s else noticeMode cause s
  let s := noticeEmptied m.holds s
  let s := s.onChu fun c => { c with trip := false }
  let s := if haltMember m .stall then releaseStall s else s
  evalStandstill (repostGroutNone s)

/-- SET_MODE(STANDBY): the sets are emptied, and a change of mode is taken up by every unit (R162, R163). -/
def toStandby (s : State) : State :=
  let previous := s.mdu.mode
  let s := enterStandby (.request 0x07) s
  if previous = .standby then s else leaveBoring previous (takeMode previous s)

/-! ## Acknowledging (R171) -/

/-- The causes that ACK_HALT removes: the members marked removable (R171). -/
def removableHalts (m : Mdu) : Vector (Option Bool) 8 :=
  Vector.ofFn fun i => if m.halts[i] = some true then some true else none

/-- The causes that ACK_HALT leaves (R171). -/
def remainingHalts (m : Mdu) : Vector (Option Bool) 8 :=
  Vector.ofFn fun i => if m.halts[i] = some true then none else m.halts[i]

/-- An accepted ACK_HALT: removable causes leave, CHU is told of STALL's and LOAD_TRIP's leaving, and an empty
set makes the mode READY (R56, R171). -/
def acknowledge (s : State) : State :=
  let m := s.mdu
  let s := s.onMdu fun m => { m with halts := remainingHalts m }
  let s := if haltMember s.mdu .loadTrip then s else s.onChu fun c => { c with trip := false }
  let s := if haltMember m .stall ∧ ¬ haltMember s.mdu .stall then releaseStall s else s
  if haltsEmpty s.mdu.halts then changeMode .ready (.request 0x0A) s else s

end Sys2Proof.Machine
end

