-- ==== Sys2Proof/Machine/Jobs.lean ====
section
/-! DEFINITION. Events that the job units take from outside: pulses, station reports, losses and recoveries,
with the halt causes they post. A halt that an event calls for is posted when its unit has taken the event
whole, and each unit then takes the change of mode as an event of its own (R163). -/

namespace Sys2Proof.Machine

/-! ## Pulses -/

/-- A credited pulse: the step if P equals Q, the boundary at PFS, and BLD's stroke test (R4, R15, R123,
R156). -/
def creditedPulse (s : State) : State :=
  let s := creditPulse s
  let s := if s.adv.acc = s.profile.quantum then activatePending (advanceStep s.profile.quantum s) else s
  strokeTest s

/-- ADV handles a pulse whole, by its class (R1 to R4). -/
def takePulse (advD : Bool) (s : State) : State :=
  match pulseClass advD s.adv.debt with
  | .reverse =>
    let s := reversePulse s
    postHaltIf (rollbackDue s) .rollbackLimit s
  | .repaying => repayingPulse s
  | .credited => creditedPulse s

/-! ## Reports (R182) -/

/-- CHU takes a DRIVE report, and posts LOAD_TRIP if the report leaves H at or above H_trip (R42, R53). -/
def takeDrive (r : DriveReport) (s : State) : State :=
  let s := driveReport r s
  postHaltIf (reportTrips s) .loadTrip s

/-- FCU takes a BULKHEAD report, and posts FACE_BLIND if the face-blind condition begins (R61, R71). -/
def takeBulkhead (r : BulkheadReport) (s : State) : State :=
  let before := s.fcu.faceBlind
  let s := bulkheadReport r s
  postHaltIf (!before && s.fcu.faceBlind) .faceBlind s

/-- A report is handed to the owner of its station (R182). -/
def takeReport (r : Report) (s : State) : State :=
  match r with
  | .drive d => takeDrive d s
  | .bulkhead b => takeBulkhead b s
  | .thrust k entries => afterThrust (thrustReport k entries s)
  | .erector e => erectorReport e s
  | .grout i g => groutReport i g s

/-! ## Stations lost and recovered (R183, R184) -/

/-- The role of an address: 1 to 13 (00_scope.md). -/
def roleOf (i : Fin 13) : Role :=
  if i.val = 0 then .drive
  else if i.val = 1 then .bulkhead
  else if h : i.val < 6 then .thrust ⟨i.val - 2, by omega⟩
  else if i.val = 6 then .erector
  else .grout ⟨(i.val - 7) % 6, by omega⟩

/-- The BULKHEAD station is LOST or disabled: the face-blind condition begins (R71, R72). -/
def bulkheadLost (s : State) : State :=
  let before := s.fcu.faceBlind
  let s := followBlind s
  postHaltIf (!before && s.fcu.faceBlind) .faceBlind s

/-- The owner of a station takes its loss, or its disabling (R183). -/
def ownerLost (r : Role) (s : State) : State :=
  match r with
  | .drive => postHalt .driveLost (stopDrive s)
  | .bulkhead => bulkheadLost s
  | .thrust k => afterThrust (thrustLost k s)
  | .erector => faultActive .erectorLost s
  | .grout i => groutLost i s

/-- The owner of a station takes its recovery: CHU withdraws DRIVE_LOST (R57, R184); the others act on the
report that follows. -/
def ownerRecovered (r : Role) (s : State) : State :=
  match r with
  | .drive => withdrawHalt .driveLost s
  | .bulkhead => s | .thrust _ => s | .erector => s | .grout _ => s

/-! ## Timers that post a halt -/

/-- Expiry of the stall timer (R56). -/
def stallExpiry (s : State) : State := postHalt .stall (stallDrive s)

/-- Expiry of T_under: in QUALIFYING the state becomes POSTED and FACE_UNDER is posted (R70). -/
def underExpiry (s : State) : State :=
  postHalt .faceUnder (s.onFcu fun f => { f with under := .posted, underTimer := .stopped })

/-- Expiry of T_excav: the state, the flag on the weighing ring and the EXCAVATION notice, then OVER_EXCAVATION
(R78): the posting follows what FCU does at the expiry, as with every halt (log 5). -/
def excavExpiry (s : State) : State :=
  let s := s.onFcu fun f => { f with excav := .posted, excavTimer := .stopped }
  postHalt .overExcavation (noticeExcavation true (flagWeighing (fun f => { f with overExcavation := true }) s))

/-- Expiry of the standstill timer (R173). -/
def standstillExpiry (s : State) : State :=
  changeMode .standstill .standstill (s.onMdu fun m => { m with standstill := .stopped })

/-! ## Geometry (R152) -/

/-- Every unit takes an accepted geometry record (R152), in one fixed order: RGU and ADV, FCU, GRU, THU, CHU
(log 4). -/
def takeGeometry (g : Geometry) (s : State) : State :=
  let ring := s.rgu.current.number
  let s := s.onPfs fun p => { p with geometry := some g }
  let s := advanceGeometry (reopenRing ring s)
  let s := groutGeometry g ring (faceGeometry ring s)
  cutterGeometry (thrustGeometry g s)

end Sys2Proof.Machine
end

