-- ==== Sys2Proof/Machine/Station.lean ====
section
/-! DEFINITION. Station Link Controller: commands, reply frames, visits, link states (chapter 10). -/

namespace Sys2Proof.Machine

/-- The record of a station. -/
def State.station (s : State) (i : Fin 13) : Station := s.slc.stations[i]

/-- The address of a station record, 1 to 13. -/
def addressOf (i : Fin 13) : Nat := i.val + 1

/-- Change the record of a station. -/
def onStation (i : Fin 13) (f : Station → Station) (s : State) : State :=
  s.onSlc fun l => { l with stations := vmod l.stations i f }

/-- Every station record, by ascending address. -/
def allStations : List (Fin 13) := [0, 1, 2, 3, 4, 5, 6, 7, 8, 9, 10, 11, 12]

/-! ## Frames (R177, section 11.4) -/

/-- The command kind of a role (section 11.4). -/
def commandKind : Role → Byte
  | .drive => 0x21#8 | .bulkhead => 0x22#8 | .thrust _ => 0x23#8 | .erector => 0x24#8 | .grout _ => 0x25#8

/-- The report kind of a role (section 11.4). -/
def reportKind : Role → Byte
  | .drive => 0x31#8 | .bulkhead => 0x32#8 | .thrust _ => 0x33#8 | .erector => 0x34#8 | .grout _ => 0x35#8

/-- The fixed payload length of a role's report (section 11.4). -/
def reportLength : Role → Nat
  | .drive => 5 | .bulkhead => 12 | .thrust _ => 9 | .erector => 3 | .grout _ => 5

/-- The pair of a thrust station, by its place (section 2.1). -/
def pairAt (k : Fin 4) (j : Fin 4) : Fin 16 := ⟨4 * k.val + j.val, by omega⟩

/-- The command fields of a role as its owner holds them (R188). -/
def commandFields (s : State) (r : Role) : List Field :=
  match r with
  | .drive => [u2 (setpoint s), u1 s.chu.direction.code, u2 s.chu.ceiling]
  | .bulkhead => [u1 s.fcu.screw, u1 (gateCode s.fcu.gateOpen)]
  | .thrust k => allGroups.flatMap fun j =>
      let a := pairAction (s.pair (pairAt k j))
      [u1 a.code, u2 a.pressure]
  | .erector =>
    let c := s.bld.command
    match c with
    | .hold => [u1 c.code, u1 s.bld.opNumber, u1 0, u1 0, u1 0]
    | .pick kind => [u1 c.code, u1 s.bld.opNumber, u1 kind.code, u1 0, u1 0]
    | .place kind start width => [u1 c.code, u1 s.bld.opNumber, u1 kind.code, u1 start, u1 width]
  | .grout i => [u1 (pumpAction (s.line i).state).code]

/-- The characters of a station frame: the address with the ninth bit set, then kind, length, payload and check
with it clear (R177). -/
def stationFrame (address : Nat) (kind : Byte) (payload : List Byte) : List Char9 :=
  let body := kind :: BitVec.ofNat 8 payload.length :: payload
  BitVec.ofNat 9 (256 + address) :: (body ++ checkBytes body).map (BitVec.setWidth 9)

/-- The command frame of a station (R178, R188). -/
def commandFrame (s : State) (i : Fin 13) : List Char9 :=
  stationFrame (addressOf i) (commandKind (roleOf i)) (fieldBytes (commandFields s (roleOf i)))

/-! ## Visits (R178, R179) -/

/-- A visit begins at an enabled station: the command frame is formed and sent (R177, R178). -/
def beginVisit (i : Fin 13) (s : State) : State :=
  s.onSlc fun l =>
    { l with position := addressOf i, phase := .sending, txEnable := true, windowTimer := .stopped,
             frame := commandFrame s i, reply := [], discarding := false, unrecorded := false }

/-- No visit is in flight. -/
def noVisit (l : Slc) : Slc :=
  { l with phase := .none, txEnable := false, windowTimer := .stopped, frame := [], reply := [],
           discarding := false, unrecorded := false }

/-- The next enabled station after a position: the lowest one for which `later` holds, or else the lowest of
all (R178, R179). -/
def nextStation (l : Slc) (later : Nat → Bool) : Option (Fin 13) :=
  let enabled := allStations.filter fun i => (l.stations[i]).enabled
  match enabled.find? fun i => later (addressOf i) with
  | some i => some i
  | none => enabled.head?

/-- A visit begins at the next enabled station; none begins while no station is enabled (R178, R179). -/
def visitNext (later : Nat → Bool) (s : State) : State :=
  match nextStation s.slc later with
  | some i => beginVisit i s
  | none => s.onSlc noVisit

/-- The visit ends and the next one begins, at the next enabled address above, or at the lowest (R178). -/
def endVisit (s : State) : State :=
  let position := s.slc.position
  visitNext (fun a => decide (position < a)) (s.onSlc noVisit)

/-! ## Link states (R181, R183, R184, R190) -/

/-- STATION_STATE (R190). -/
def noticeStation (i : Fin 13) (previous : LinkState) (cause : StationCause) (s : State) : State :=
  let t := s.station i
  notify .stationState
    [u1 (addressOf i), u1 (roleOf i).code, u1 previous.code, u1 t.link.code, fl t.enabled, u1 cause.code] s

/-- A hit: the miss count is cleared, a station not ONLINE becomes so and its owner is told, and the report is
handed (R181, R184). -/
def recordHit (i : Fin 13) (r : Report) (s : State) : State :=
  let previous := (s.station i).link
  let s := onStation i (fun t => { t with link := .online, misses := 0 }) s
  let s := if previous = .online then s else ownerRecovered (roleOf i) (noticeStation i previous .reply s)
  takeReport r s

/-- A miss: the count rises to at most 3, and at 3 an ONLINE station becomes LOST and its owner is told (R181,
R183). -/
def recordMiss (i : Fin 13) (s : State) : State :=
  let t := s.station i
  let misses := min 3 (t.misses + 1)
  let s := onStation i (fun t => { t with misses := misses }) s
  if t.link = .online ∧ misses = 3 then
    ownerLost (roleOf i) (noticeStation i .online .misses (onStation i (fun t => { t with link := .lost }) s))
  else s

/-- The station of the visit in flight. -/
def visited (l : Slc) : Fin 13 := ⟨(l.position - 1) % 13, by omega⟩

/-- A visit ends as a miss (R181); a station disabled during its visit has no outcome recorded (R186). -/
def missVisit (s : State) : State :=
  endVisit (if s.slc.unrecorded then s else recordMiss (visited s.slc) s)

/-! ## Replies (R180, R189) -/

/-- The value of payload bytes from an offset. -/
def payloadAt (bs : List Byte) (offset width : Nat) : Nat := bytesToNat ((bs.drop offset).take width)

/-- The payload byte at an offset has one of the field's named values (R189): bytes of other fields have no
named values. -/
def namedValue (r : Role) (offset v : Nat) : Bool :=
  match r with
  | .drive => offset != 2 || (directionOfCode v).isSome
  | .bulkhead => !(offset == 2 || offset == 5 || offset == 8) || decide (v ≤ 1)
  | .thrust _ => true
  | .erector => (offset != 1 || decide (v ≤ 1)) && (offset != 2 || (erectorResultOfCode v).isSome)
  | .grout _ => true

/-- The character at a place of the reply passes its check (R180, R189). -/
def charOk (i : Fin 13) (place : Nat) (c : Char9) : Bool :=
  let v := c.toNat
  match place with
  | 0 => v == 256 + addressOf i
  | 1 => v == (reportKind (roleOf i)).toNat
  | 2 => v == reportLength (roleOf i)
  | n + 3 => decide (v < 256) && (decide (reportLength (roleOf i) ≤ n) || namedValue (roleOf i) n v)

/-- What characters make of a reply. -/
inductive ReplyState where
  | malformed
  | incomplete (taken : List Char9)
  | complete (taken : List Char9)
  deriving DecidableEq, Repr

/-- The characters of a complete reply: address, kind, length, payload and two check characters (R180). -/
def replyLength (i : Fin 13) : Nat := reportLength (roleOf i) + 5

/-- SLC takes characters one after another until the reply is malformed or complete (R180). -/
def takeChars (i : Fin 13) : List Char9 → List Char9 → ReplyState
  | taken, [] => .incomplete taken
  | taken, c :: cs =>
    if charOk i taken.length c then
      let taken := taken ++ [c]
      if replyLength i ≤ taken.length then .complete taken else takeChars i taken cs
    else .malformed

/-- The report that a payload spells (R189, section 11.5). -/
def reportOf (r : Role) (bs : List Byte) : Report :=
  match r with
  | .drive =>
    .drive { speed := payloadAt bs 0 2, direction := (directionOfCode (payloadAt bs 2 1)).getD .cw,
             torque := payloadAt bs 3 2 }
  | .bulkhead =>
    .bulkhead
      { crown := { pressure := payloadAt bs 0 2, valid := payloadAt bs 2 1 == 1 },
        axis := { pressure := payloadAt bs 3 2, valid := payloadAt bs 5 1 == 1 },
        invert := { pressure := payloadAt bs 6 2, valid := payloadAt bs 8 1 == 1 },
        screw := payloadAt bs 9 2, bin := payloadAt bs 11 1 }
  | .thrust k =>
    .thrust k (Vector.ofFn fun j =>
      (payloadAt bs (2 * j.val) 2, (payloadAt bs 8 1).testBit j.val,
       if (payloadAt bs 8 1).testBit (j.val + 4) then .fault else .ok))
  | .erector =>
    .erector { number := payloadAt bs 0 1,
               result := if payloadAt bs 1 1 = 1 then erectorResultOfCode (payloadAt bs 2 1) else none }
  | .grout l =>
    .grout l { pressure := payloadAt bs 0 2, count := payloadAt bs 2 2, pump := (payloadAt bs 4 1).testBit 0,
               flush := (payloadAt bs 4 1).testBit 1 }

/-- A complete reply is judged by its CRC: a report, or a CRC failure (R180). -/
def judgeReply (i : Fin 13) (cs : List Char9) : Option Report :=
  let bytes := (cs.drop 1).map (BitVec.setWidth 8)
  let body := bytes.take (reportLength (roleOf i) + 2)
  if checkBytes body = bytes.drop (reportLength (roleOf i) + 2) then some (reportOf (roleOf i) (body.drop 2))
  else none

/-- A complete reply ends the visit as a hit or, on a CRC failure, as a miss (R180, R181, R186). -/
def completeReply (i : Fin 13) (cs : List Char9) (s : State) : State :=
  match judgeReply i cs with
  | none => missVisit s
  | some r => endVisit (if s.slc.unrecorded then s else recordHit i r s)

/-- Characters received on the station link: taken as the reply in LISTENING, discarded otherwise (R177,
R180). -/
def takeReplyChars (cs : List Char9) (s : State) : State :=
  if s.resetHeld = true ∨ s.slc.phase ≠ .listening ∨ s.slc.discarding = true then s
  else
    match takeChars (visited s.slc) s.slc.reply cs with
    | .malformed => s.onSlc fun l => { l with discarding := true }
    | .incomplete taken => s.onSlc fun l => { l with reply := taken }
    | .complete taken => completeReply (visited s.slc) taken s

/-- The end of sending a command frame: the transmitter is released, and the reply window starts with the
pending length if there is one (R177, R178). A length set while this command frame was being sent is taken up here,
as R178 says of any pending length, and not at the next visit as R187 has it: the rules conflict (log 21). -/
def startListening (s : State) : State :=
  s.onSlc fun l =>
    let window := l.nextWindow.getD l.window
    { l with phase := .listening, txEnable := false, window, nextWindow := none,
             windowTimer := .running (s.now + window) }

/-! ## Enabling and disabling (R185, R186) -/

/-- The owner is told that its station is disabled: for an ONLINE station always (R185). For a thrust station that is
NOT_SEEN, R36 gives its pairs STATION_LOST where R185 tells no owner: a free value decides (log 29). -/
def disablingTold (r : Role) (link : LinkState) : Bool :=
  match link with
  | .online => true
  | .lost => false
  | .notSeen => match r with
    | .thrust _ => Config.notSeenDisabledTold
    | .drive => false | .bulkhead => false | .erector => false | .grout _ => false

/-- An accepted STATION_ENABLE that turns a station off (R36, R185, R186). -/
def disableStation (i : Fin 13) (s : State) : State :=
  let t := s.station i
  if t.enabled = false then s
  else
    let s := s.onSlc fun l =>
      { l with unrecorded := l.unrecorded || (l.phase != .none && visited l == i) }
    let s := onStation i (fun t =>
      { t with enabled := false, misses := 0, link := if t.link = .online then .lost else t.link }) s
    let s := noticeStation i t.link .disable s
    if disablingTold (roleOf i) t.link then ownerLost (roleOf i) s else s

/-- An accepted STATION_ENABLE that turns a station on; the round restarts with it if none was under way (R179,
R185). -/
def enableStation (i : Fin 13) (s : State) : State :=
  let t := s.station i
  if t.enabled then s
  else
    let s := onStation i (fun t => { t with enabled := true, misses := 0 }) s
    let s := noticeStation i t.link .enable s
    if s.slc.phase = .none then visitNext (fun a => decide (s.slc.position ≤ a)) s else s

/-- SLC takes the host restart: the visit in flight ends without an outcome, a pending window comes into force,
and the round begins again at the lowest enabled address (R192). -/
def stationRestart (s : State) : State :=
  visitNext (fun _ => true)
    (s.onSlc fun l => { noVisit l with window := l.nextWindow.getD l.window, nextWindow := none })

end Sys2Proof.Machine
end

