-- ==== Sys2Proof/Machine/Host.lean ====
section
/-! DEFINITION. Host Link Controller: the receiver, the receive queue and the taking of requests, and the host
restart (chapter 11). -/

namespace Sys2Proof.Machine

/-! ## The receiver (R193, R194) -/

/-- A complete, checked frame: queued, or answered REFUSED_BUSY at a full queue, or discarded when only the last
place of the reply list is left (R194, R195). -/
def receiveFrame (f : Frame) (s : State) : State :=
  s.onHlc fun h =>
    if h.queue.length < Config.receiveCapacity then { h with queue := h.queue ++ [f] }
    else if h.replies.length < Config.replyCapacity - 1 then
      { h with replies := h.replies ++ [replyFrame f.kind f.tag .refusedBusy []] }
    else h

/-- The receiver hunts for the next frame; the partial frame is discarded (R193). -/
def hunt (s : State) : State := s.onHlc fun h => { h with rx := .hunting, bytes := [], gapTimer := .stopped }

/-- The receiver takes a byte of a frame, and the gap timer runs from it (R193). -/
def takeByte (rx : RxState) (b : Byte) (s : State) : State :=
  s.onHlc fun h => { h with rx, bytes := h.bytes ++ [b], gapTimer := .running (s.now + Config.gapMillis) }

/-- The length byte of a partial frame. -/
def partialLength (bytes : List Byte) : Nat := (bytes.getD 1 0).toNat

/-- The frame that complete bytes spell, if its check matches (R193). -/
def frameOfBytes (bytes : List Byte) : Option Frame :=
  let body := (bytes.drop 1).take (partialLength bytes + 3)
  if checkBytes body = bytes.drop (partialLength bytes + 4) then
    some { kind := body.getD 1 0, tag := body.getD 2 0, payload := body.drop 3 }
  else none

/-- A byte arrives at the host receiver (R193). -/
def receiveByte (b : Byte) (framingError : Bool) (s : State) : State :=
  if s.resetHeld then s
  else if framingError then hunt s
  else
    match s.hlc.rx with
    | .hunting => if b = 0xC3#8 then takeByte .header b (hunt s) else s
    | .header =>
      if s.hlc.bytes.length = 1 ∧ 200 < b.toNat then hunt s
      else takeByte (if s.hlc.bytes.length < 3 then .header else .body) b s
    | .body =>
      let bytes := s.hlc.bytes ++ [b]
      if bytes.length < partialLength bytes + 6 then takeByte .body b s
      else
        match frameOfBytes bytes with
        | some f => receiveFrame f (hunt s)
        | none => hunt s

/-! ## Taking requests (R194) -/

/-- HLC can take a frame: no request in process and a place in the reply list (R194). -/
def canTake (s : State) : Bool :=
  !s.resetHeld && !s.hlc.inProcess && decide (s.hlc.replies.length < Config.replyCapacity)

/-- The request at the head of the receive queue is in process. -/
def startRequest (s : State) : State := s.onHlc fun h => { h with queue := h.queue.drop 1, inProcess := true }

/-- HLC takes the request command `i`: it is the head of the receive queue, or it arrives at an empty queue and is
taken at once. Otherwise it cannot be the one taken, and nothing changes (R194; log 2). -/
def takeRequest (i : Instr) (body : State → State) (s : State) : State :=
  if canTake s then
    match s.hlc.queue with
    | [] => body (startRequest s)
    | f :: _ => if requestOf f = some i then body (startRequest s) else s
  else s

/-- The head of the queue is answered without reaching a unit: REFUSED_UNKNOWN for a kind that names no request,
REFUSED_FORMAT for a known kind of another length (R194). -/
def answerHead (isKnown : Bool) (r : Result) (s : State) : State :=
  if canTake s then
    match s.hlc.queue with
    | [] => s
    | f :: _ =>
      if (requestLength f.kind.toNat).isSome = isKnown
          ∧ requestLength f.kind.toNat ≠ some f.payload.length then
        reply f.kind.toNat f.tag r [] (startRequest s)
      else s
  else s

/-- The command that takes the head of the receive queue, if it can be taken (R194). -/
def headCommand (s : State) : Option Instr :=
  if canTake s then
    match s.hlc.queue with
    | [] => none
    | f :: _ =>
      match requestOf f with
      | some i => some i
      | none => some (if (requestLength f.kind.toNat).isSome then .requestLengthMismatch else .unknownRequestKind)
  else none

/-! ## The host restart (R176, R199) -/

/-- Every unit takes the host restart, each under its own rule (R199). -/
def restartUnits (s : State) : State :=
  let previous := s.mdu.mode
  let s := enterStandby .restart s
  let s := faceRestart (stopDrive (thrustRestart s))
  let s := returnAll (stopAllInjecting s)
  let s := stationRestart (buildRestart s)
  leaveBoring previous s

end Sys2Proof.Machine
end

