-- ==== Sys2Proof/Machine/Status.lean ====
section
/-! DEFINITION. What the host reads: the parts of GET_STATUS and the data of the query replies (R18, R39, R58,
R82, R109, R134, R147, R154, R160, R175, R190, R198, R201). Readings of the layouts are in log row 14. -/

namespace Sys2Proof.Machine

/-- Whole seconds left to the expiry of a running timer (R175). -/
def secondsLeft (now : Nat) : Timer → Option Nat
  | .running t => some ((t - now) / Config.millis)
  | .stopped => none

/-- The two bytes of the halt-cause set with its marks (R201). -/
def haltBytes (m : Mdu) : Field := .raw [haltsByte m.halts, marksByte m.halts]

/-- Part 0: mode unit, profile store and advance unit (R175, R160, R18). The quantum is a profile field, of 2 bytes
(R201). -/
def statusMode (s : State) : List Field :=
  let m := s.mdu
  [u1 m.mode.code, u1 m.previous.code, .raw [holdsByte m.holds], haltBytes m, u1 (permissionCode m.permitted),
   fl m.advPermit, fl m.haltOut, fl m.standstill.isRunning, opt 2 (secondsLeft s.now m.standstill),
   fl m.driveStopped, fl m.planBusy,
   fl s.pfs.geometry.isSome, u1 s.pfs.active.index, opt 1 (s.pfs.next.map fun p => p.index.val),
   u2 s.adv.stroke, u1 s.adv.acc, u2 s.adv.debt, u2 s.adv.serial, u2 s.profile.quantum]

/-- Part 1: thrust unit (R39). R39 lists no count of its arcs, which follows from the frame's length (log 14): the
reply has 194 payload bytes, and 6 more for each arc in flight. With two arcs that is above the 200 of R193: the two
rules conflict, and the reply goes out whole with its true length byte (log 27). -/
def statusThrust (s : State) : List Field :=
  let t := s.thu
  (allPairs.flatMap fun i =>
    let p := t.pairs[i]
    [u1 p.state.code, opt 1 (p.state.cause.map PairCause.code), opt 1 p.tag, u2 p.commanded,
     opt 2 p.lastPressure, opt 1 (p.lastClear.map flagCode), opt 1 (p.lastStatus.map PairStatus.code)])
  ++ (allGroups.map fun g => u2 t.setpoints[g])
  ++ (allGroups.flatMap fun g => [opt 4 (groupDemand t g), fl (groupShort s g)])
  ++ (t.arcs.flatMap fun a =>
      [u1 a.id, u1 a.start, u1 a.width, u1 a.phase.code, fl a.placed, fl (a.reseat == .expired)])
  ++ [opt 1 (t.waiting.map ArcRequest.start), opt 1 (t.waiting.map ArcRequest.width)]

/-- Part 2: cutterhead unit (R58). Speed, direction and torque of the last report are three fields, each with a
presence bit of its own (log 14). Whether the trip condition is present is sent as a flag, 1 when present (log 13). -/
def statusCutter (s : State) : List Field :=
  let c := s.chu
  [u1 c.drive.code, u2 c.hostSpeed, u1 c.hostDir.code, u2 c.applied, u1 c.direction.code, u2 (setpoint s),
   u2 c.ceiling, u2 c.loadIndex, opt 1 c.loadRatio, fl c.zone,
   opt 2 (c.last.map DriveReport.speed), opt 1 (c.last.map fun r => r.direction.code),
   opt 2 (c.last.map DriveReport.torque), fl c.stallTimer.isRunning,
   opt 1 (if haltMember s.mdu .loadTrip then some (flagCode c.trip) else none)]

/-- A reading of the last bulkhead report: the pressure and its validity flag, or absent (R82). -/
def readingFields (r : Option Reading) : List Field :=
  [opt 2 (r.map Reading.pressure), opt 1 (r.map fun x => flagCode x.valid)]

/-- Part 3: face unit (R82). -/
def statusFace (s : State) : List Field :=
  let f := s.fcu
  [u1 f.regulator.code, u1 f.screw, u1 (gateCode f.gateOpen), .num 1 f.trim, .num 2 (setPoint s),
   u1 (screwCap s)]
  ++ readingFields (f.last.map BulkheadReport.crown) ++ readingFields (f.last.map BulkheadReport.axis)
  ++ readingFields (f.last.map BulkheadReport.invert)
  ++ [opt 2 (f.last.map BulkheadReport.screw), opt 1 (f.last.map BulkheadReport.bin), fl f.binHalt,
      fl f.chamberHigh, u1 f.under.code, fl f.underTimer.isRunning, fl f.faceBlind]

/-- Part 4: grout unit (R109). The bytes of the shortfall measure are free (log 12). A configured weight that is UNSET
is sent as an absent field, with a presence bit of its own (log 14). -/
def statusGrout (s : State) : List Field :=
  let g := s.gru
  (allLines.flatMap fun i =>
    let l := g.lines[i]
    [u1 l.state.code, opt 1 (l.state.cause.map IsolationCause.code), opt 2 l.configured, u2 l.effective,
     i4 l.owed, u4 l.accrued, u4 l.delivered, opt 2 l.lastPressure, opt 2 l.lastCount,
     opt 1 (l.pumpRunning.map flagCode), opt 1 (l.flushOpen.map flagCode), fl l.idleTimer.isRunning,
     u1 l.holdTimer.code, fl l.flushTimer.isRunning])
  ++ [i4 g.pool, .raw (Config.shortfallBytes (shortfallMeasure g)), u1 g.shortfall.code,
      fl g.shortTimer.isRunning, fl g.nonePosted]

/-- The pause cause of a plan, present only in PAUSED. -/
def PlanState.pauseCause : PlanState → Option PauseCause
  | .paused c => some c
  | .idle => none | .running => none | .waiting => none | .complete => none | .faulted _ => none

/-- The fault cause of a plan, present only in FAULTED. -/
def PlanState.faultCause : PlanState → Option PlanFault
  | .faulted c => some c
  | .idle => none | .running => none | .waiting => none | .complete => none | .paused _ => none

/-- Part 5: build unit (R134). The pause cause and the fault cause are two fields, each with a presence bit; R134
lists the depth of the stack and no count of the plan arcs (log 14). -/
def statusBuild (s : State) : List Field :=
  let b := s.bld
  [u1 b.plan.code, opt 1 (b.plan.pauseCause.map PauseCause.code), opt 1 (b.plan.faultCause.map PlanFault.code),
   u1 b.slot, opt 1 ((stepInFlight b).map StepKind.code), fl b.stepTimer.isRunning, u1 b.stack.length]
  ++ (b.stack.flatMap fun f => [u1 f.slot, u1 f.base])
  ++ [u1 b.base, opt 1 (b.held.map SegKind.code), u1 b.outcome]
  ++ (b.arcs.flatMap fun a => [u1 a.id, u1 a.start, u1 a.width, u1 a.phase.code, fl a.placed])
  ++ [opt 1 b.lastPlaced, opt 1 b.background, u1 b.opNumber, opt 1 (b.orphan.map Operation.number)]

/-- Part 6: station link controller (R190). -/
def statusStation (s : State) : List Field :=
  let l := s.slc
  (allStations.flatMap fun i =>
    let t := l.stations[i]
    [u1 (addressOf i), u1 (roleOf i).code, fl t.enabled, u1 t.link.code, u1 t.misses])
  ++ [u1 l.window, opt 1 l.nextWindow, u1 l.position]

/-- The fields of a part, none for a number above 6 (R198). -/
def statusPart (s : State) : Nat → Option (List Field)
  | 0 => some (statusMode s)
  | 1 => some (statusThrust s)
  | 2 => some (statusCutter s)
  | 3 => some (statusFace s)
  | 4 => some (statusGrout s)
  | 5 => some (statusBuild s)
  | 6 => some (statusStation s)
  | _ => none

/-- The common header of GET_STATUS (R198). -/
def statusHeader (part : Nat) (s : State) : List Field :=
  [u1 part, u1 s.mdu.mode.code, .raw [holdsByte s.mdu.holds], haltBytes s.mdu, fl s.hlc.dropped,
   u1 s.hlc.notices.length, u1 s.hlc.queue.length]

/-- The data of a GET_STATUS reply: the header, then the part with its presence bits (R198, R201). -/
def statusData (part : Nat) (fields : List Field) (s : State) : List Field :=
  [.raw (fieldBytes (statusHeader part s) ++ fieldBytes fields)]

/-- GET_MUCK (R82). The age of the head entry is truncated to whole seconds, and the tail entry's serial has a presence
bit as the head entry's fields have (log 14). -/
def muckData (s : State) : List Field :=
  let f := s.fcu
  [opt 2 f.weighing, u4 f.due, u4 f.measured, opt 2 (massRatio f.measured f.due), u1 f.excav.code,
   fl f.excavTimer.isRunning, fl f.underMark, u1 f.transit.length,
   opt 2 (f.transit.head?.map TransitEntry.serial), opt 2 (f.transit.head?.map TransitEntry.ring),
   opt 4 (f.transit.head?.map TransitEntry.mass),
   opt 2 (f.transit.head?.map fun e => min 65535 ((s.now - e.time) / Config.millis)),
   opt 2 (f.transit.getLast?.map TransitEntry.serial), u2 f.earlyReleases]

/-- The geometry record, every field absent while UNSET (R154). -/
def geometryData (s : State) : List Field :=
  geometryWidths.zipIdx.map fun wi => opt wi.1 (s.geometry.map fun g => g.toFields.getD wi.2 0)

/-- A profile's fields, then whether it is active (0), pending (1) or neither (2) (R154). -/
def profileData (p : ProfileName) (s : State) : List Field :=
  let v := s.pfs.profiles[p.index].toFields
  (profileWidths.zip v).map (fun wv => .num wv.1 wv.2)
  ++ [u1 (if s.pfs.active = p then 0 else if s.pfs.next = some p then 1 else 2)]

/-! ## Ring records (section 11.5) -/

/-- The flags byte of a ring record. -/
def ringFlags (r : RingRecord) : Byte :=
  BitVec.ofNat 8 (bitsToNat
    [r.flags.rollbackSeen, r.flags.envelopeEntered, r.flags.groutShort, r.flags.crownSuspended,
     r.flags.overExcavation, r.flags.underExcavation, r.moreChanges])

/-- The state and presence byte of a ring record. -/
def ringPresence (r : RingRecord) (figures settled ratio : Bool) : Byte :=
  BitVec.ofNat 8 (bitsToNat
    [r.buildDone, r.strokeDone, r.measured.isSome, r.axis.isSome, figures, settled, ratio])

/-- The fields common to an open record and a log entry. -/
def recordFields (kind : Nat) (r : RingRecord) (presence : Byte) : List Field :=
  [u1 kind, u2 r.number, u2 r.stroke, u4 r.volume, u4 r.mass, u1 r.profileAtOpen.index,
   .raw [ringFlags r], .raw [presence], u4 (r.measured.getD 0),
   u2 ((r.axis.map AxisRange.lowest).getD 0), u2 ((r.axis.map AxisRange.highest).getD 0),
   u1 r.segments.length]
  ++ (r.segments.flatMap fun g => [u1 g.sequence, u1 g.kind.code, u1 g.start, u1 g.width, u1 g.outcome.code])
  ++ u1 r.changes.length :: (r.changes.flatMap fun c => [u2 c.serial, u1 c.profile.index])

/-- The data of GET_RING: the open record and the log's summary (R147). -/
def ringData (s : State) : List Field :=
  let r := s.rgu.current
  recordFields 0 r (ringPresence r false false false)
  ++ [u1 s.rgu.log.length, u2 ((s.rgu.log.head?.map fun e => e.record.number).getD 0),
      u2 ((s.rgu.log.getLast?.map fun e => e.record.number).getD 0)]

/-- The line figures of a log entry, 0 while absent. -/
def figureFields (v : Option (Vector LineFigures 6)) : List Field :=
  allLines.flatMap fun i =>
    match v with
    | some f => [u4 f[i].accrued, u4 f[i].delivered, i4 f[i].owed]
    | none => [u4 0, u4 0, u4 0]

/-- The data of GET_LOG_ENTRY (R147). -/
def entryData (e : LogEntry) : List Field :=
  recordFields 1 e.record
    (ringPresence e.record e.figures.isSome e.settled.isSome ((e.settled.bind Balance.ratio).isSome))
  ++ u2 e.strokeAtClose :: figureFields e.figures
  ++ [u4 ((e.settled.map Balance.expected).getD 0), u4 ((e.settled.map Balance.measured).getD 0),
      u2 ((e.settled.bind Balance.ratio).getD 0)]

end Sys2Proof.Machine
end

