-- ==== Sys2Proof/Machine/Events.lean ====
section
/-! DEFINITION. The meanings of the commands that come from pins, timers and links. An event that cannot arise in
the state (a timer that is not running, a link that is idle) leaves the state as it is (log 2). -/

namespace Sys2Proof.Machine

/-! ## Pins -/

/-- ADV_P_PULSE (R1): while RESET-N is asserted edges are not counted. -/
def execAdvPPulse (advD : Bool) (s : State) : Host.Outcome State Fault Refusal :=
  finish (if s.resetHeld then s else takePulse advD s)

/-- BELT_P_PULSE (R73): while RESET-N is asserted edges are not counted. -/
def execBeltPPulse (s : State) : Host.Outcome State Fault Refusal :=
  finish (if s.resetHeld then s else weighPulse s)

/-- POWER_ON_RESET (R176): every unit takes its reset values; the commands that wait keep waiting (log 1). -/
def execPowerOnReset (s : State) : Host.Outcome State Fault Refusal :=
  finish { State.reset with resetHeld := true, pending := s.pending }

/-- RESET_END (R191): RESET-N is released, and the round begins at the lowest enabled address. Every station is
enabled at reset, so that is address 1; where RESET-N was not asserted a disabled station is passed over and no
visit begins while none is enabled (R179, log 2). -/
def execResetEnd (s : State) : Host.Outcome State Fault Refusal :=
  finish (if s.slc.phase = .none then visitNext (fun _ => true) { s with resetHeld := false } else s)

/-! ## Timers -/

/-- The expiry of a timer that is running; nothing for one that is stopped (log 2). -/
def onExpiry (t : Timer) (f : State → State) (s : State) : State :=
  match t with
  | .running expiry => f (s.atExpiry expiry)
  | .stopped => s

/-- The expiry of a marked timer that is running; nothing for one that is stopped or expired (log 2). -/
def onMarkExpiry (t : MarkTimer) (f : State → State) (s : State) : State :=
  match t with
  | .running expiry => f (s.atExpiry expiry)
  | .stopped => s
  | .expired => s

/-- GAP_TIMER_EXPIRY (R193). -/
def execGapTimerExpiry (s : State) : Host.Outcome State Fault Refusal :=
  finish (onExpiry s.hlc.gapTimer hunt s)

/-- REPLY_WINDOW_EXPIRY (R178, R180, R181): the visit ends as a miss. -/
def execReplyWindowExpiry (s : State) : Host.Outcome State Fault Refusal :=
  finish (onExpiry s.slc.windowTimer missVisit s)

/-- GROUP_SHORT_TIMER_EXPIRY (R26). -/
def execGroupShortTimerExpiry (s : State) : Host.Outcome State Fault Refusal :=
  finish (onMarkExpiry s.thu.groupTimer
    (fun s => postHold .groupShort (s.onThu fun t => { t with groupTimer := .expired })) s)

/-- RELEASE_TIMER_EXPIRY (R32) of an arc in flight. -/
def execReleaseTimerExpiry (arc : Nat) (s : State) : Host.Outcome State Fault Refusal :=
  finish (match s.arc arc with
    | some a => onExpiry a.release (fun s => afterThrust (releaseExpiry a s)) s
    | none => s)

/-- RESEAT_TIMER_EXPIRY (R35) of an arc in flight. -/
def execReseatTimerExpiry (arc : Nat) (s : State) : Host.Outcome State Fault Refusal :=
  finish (match s.arc arc with
    | some a => onMarkExpiry a.reseat (fun s => afterThrust (reseatExpiry a s)) s
    | none => s)

/-- STALL_TIMER_EXPIRY (R56). -/
def execStallTimerExpiry (s : State) : Host.Outcome State Fault Refusal :=
  finish (onExpiry s.chu.stallTimer stallExpiry s)

/-- UNDER_TIMER_EXPIRY (R70). -/
def execUnderTimerExpiry (s : State) : Host.Outcome State Fault Refusal :=
  finish (onExpiry s.fcu.underTimer underExpiry s)

/-- EXCAV_TIMER_EXPIRY (R78). -/
def execExcavTimerExpiry (s : State) : Host.Outcome State Fault Refusal :=
  finish (onExpiry s.fcu.excavTimer excavExpiry s)

/-- The age timer of the head of the transit queue, stopped at an empty queue. -/
def headAge (f : Fcu) : Timer :=
  match f.transit with
  | e :: _ => e.age
  | [] => .stopped

/-- AGE_TIMER_EXPIRY (R75): the head is released, and any entry behind it whose timer has run out. -/
def execAgeTimerExpiry (s : State) : Host.Outcome State Fault Refusal :=
  finish (onExpiry (headAge s.fcu) (fun s => releaseAged s.fcu.transit.length s) s)

/-- A line's index, if there is such a line. -/
def lineOf (n : Nat) : Option (Fin 6) := if h : n < 6 then some ⟨n, h⟩ else none

/-- IDLE_TIMER_EXPIRY (R91): the line is BLOCKED. -/
def execIdleTimerExpiry (line : Nat) (s : State) : Host.Outcome State Fault Refusal :=
  finish (match lineOf line with
    | some i => onExpiry (s.line i).idleTimer (blockLine i) s
    | none => s)

/-- HOLD_TIMER_EXPIRY (R92): the line is BLOCKED if it owes at least block_owed, and otherwise its timer is
marked expired. -/
def execHoldTimerExpiry (line : Nat) (s : State) : Host.Outcome State Fault Refusal :=
  finish (match lineOf line with
    | some i =>
      onMarkExpiry (s.line i).holdTimer (fun s =>
        let s := onLine i (fun l => { l with holdTimer := .expired }) s
        if blockDue s i then blockLine i s else s) s
    | none => s)

/-- FLUSH_TIMER_EXPIRY (R97): the line returns to service. -/
def execFlushTimerExpiry (line : Nat) (s : State) : Host.Outcome State Fault Refusal :=
  finish (match lineOf line with
    | some i => onExpiry (s.line i).flushTimer (returnLine i) s
    | none => s)

/-- GSHORT_TIMER_EXPIRY (R105). -/
def execGshortTimerExpiry (s : State) : Host.Outcome State Fault Refusal :=
  finish (onExpiry s.gru.shortTimer shortfallExpiry s)

/-- STEP_TIMER_EXPIRY (R116). -/
def execStepTimerExpiry (s : State) : Host.Outcome State Fault Refusal :=
  finish (onExpiry s.bld.stepTimer stepExpiry s)

/-- STANDSTILL_TIMER_EXPIRY (R173). -/
def execStandstillTimerExpiry (s : State) : Host.Outcome State Fault Refusal :=
  finish (onExpiry s.mdu.standstill standstillExpiry s)

/-! ## Links -/

/-- HOST_FRAME_RECEIVED (R193, R194): the last check byte of a frame with a right check has come. The receiver returns to
HUNTING with no partial frame and its gap timer stopped, whatever bytes it held (log 16), and the frame is queued or
answered. While RESET-N is asserted received bytes are discarded. -/
def execHostFrameReceived (frame : Frame) (s : State) : Host.Outcome State Fault Refusal :=
  finish (if s.resetHeld then s else receiveFrame frame (hunt s))

/-- HOST_BYTE_RECEIVED (R193). -/
def execHostByteReceived (byte : Byte) (framingError : Bool) (s : State) : Host.Outcome State Fault Refusal :=
  finish (receiveByte byte framingError s)

/-- UNKNOWN_REQUEST_KIND (R194). -/
def execUnknownRequestKind (s : State) : Host.Outcome State Fault Refusal :=
  finish (answerHead false .refusedUnknown s)

/-- REQUEST_LENGTH_MISMATCH (R194). -/
def execRequestLengthMismatch (s : State) : Host.Outcome State Fault Refusal :=
  finish (answerHead true .refusedFormat s)

/-- HOST_FRAME_SENT (R196): the transmitter is free and takes the next frame. -/
def execHostFrameSent (s : State) : Host.Outcome State Fault Refusal :=
  finish (s.onHlc fun h => { h with sending := none })

/-- COMMAND_FRAME_SENT (R178). -/
def execCommandFrameSent (s : State) : Host.Outcome State Fault Refusal :=
  finish (if s.slc.phase = .sending then startListening s else s)

/-- STATION_REPLY (R180). -/
def execStationReply (chars : List Char9) (s : State) : Host.Outcome State Fault Refusal :=
  finish (takeReplyChars chars s)

end Sys2Proof.Machine
end

