-- ==== Sys2Proof/Machine/Requests.lean ====
section
/-! DEFINITION. What each host request does at the unit that owns it: its checks, its effect and its reply.
Each function here acts on the state in which the request is in process; `takeRequest` brings it there. -/

namespace Sys2Proof.Machine

/-- A refusal: no data (R195). -/
def refuse (kind : Nat) (tag : Byte) (r : Result) (s : State) : State := reply kind tag r [] s

/-- ACCEPTED with the data that the request's rule states (R195). -/
def accept (kind : Nat) (tag : Byte) (data : State → List Field) (s : State) : State :=
  reply kind tag .accepted (data s) s

/-! ## Status, settings -/

/-- GET_STATUS (R198): the notices-dropped flag is cleared once the header carries it. -/
def doGetStatus (tag : Byte) (part : Nat) (s : State) : State :=
  match statusPart s part with
  | none => refuse 0x01 tag (.refusedRange 1 0) s
  | some fields =>
    (reply 0x01 tag .accepted (statusData part fields s) s).onHlc fun h => { h with dropped := false }

/-- SET_GEOMETRY (R151, R152). -/
def doSetGeometry (tag : Byte) (g : Geometry) (s : State) : State :=
  if s.mdu.mode ≠ .standby then refuse 0x02 tag (.refusedState 0 0) s
  else
    match geometryFailure g with
    | some (field, failure) => refuse 0x02 tag (.refusedRange field failure) s
    | none => accept 0x02 tag (fun _ => []) (takeGeometry g s)

/-- GET_GEOMETRY (R154). -/
def doGetGeometry (tag : Byte) (s : State) : State := accept 0x03 tag geometryData s

/-- WRITE_PROFILE (R153). -/
def doWriteProfile (tag : Byte) (name : Nat) (p : Profile) (s : State) : State :=
  match profileOfCode name with
  | none => refuse 0x04 tag (.refusedRange 1 0) s
  | some n =>
    if s.pfs.active = n ∨ s.pfs.next = some n then refuse 0x04 tag (.refusedState 0 0) s
    else
      match profileFailure p with
      | some (field, failure) => refuse 0x04 tag (.refusedRange field failure) s
      | none =>
        accept 0x04 tag (fun _ => []) (s.onPfs fun f => { f with profiles := f.profiles.set n.index p })

/-- READ_PROFILE (R154). -/
def doReadProfile (tag : Byte) (name : Nat) (s : State) : State :=
  match profileOfCode name with
  | none => refuse 0x05 tag (.refusedRange 1 0) s
  | some n => accept 0x05 tag (profileData n) s

/-- What a selection does (R155). -/
def selectProfile (n : ProfileName) (s : State) : State :=
  if s.pfs.active = n then s.onPfs fun f => { f with next := none }
  else if s.mdu.mode = .boring then s.onPfs fun f => { f with next := some n }
  else activate n s

/-- SELECT_PROFILE (R155). -/
def doSelectProfile (tag : Byte) (name : Nat) (s : State) : State :=
  match profileOfCode name with
  | none => refuse 0x06 tag (.refusedRange 1 0) s
  | some n =>
    accept 0x06 tag (fun s => [u1 s.pfs.active.index, opt 1 (s.pfs.next.map fun p => p.index.val)])
      (selectProfile n s)

/-! ## Modes, holds, halts -/

/-- The first check for READY from STANDBY to fail, with its argument (R162, R195). -/
def readyCheck (s : State) : Option (Nat × Nat) :=
  if s.geometry.isNone then some (1, 0)
  else
    match s.criticalOffline with
    | some a => some (2, a)
    | none => if thrustingCount s.thu < s.profile.nMin then some (3, 0) else none

/-- The reply to an accepted SET_MODE: ACCEPTED with the mode (R162, R163), then the change. The causes removed, which
R175 has the reply report, are not in it: R162 lists the mode alone (log 14). -/
def setModeTo (tag : Byte) (m : Mode) (change : State → State) (s : State) : State :=
  reply 0x07 tag .accepted [u1 m.code] (change s)

/-- SET_MODE (R162). -/
def doSetMode (tag : Byte) (mode : Nat) (s : State) : State :=
  match modeOfCode mode, s.mdu.mode with
  | some .standby, _ => setModeTo tag .standby toStandby s
  | some .ready, .standby =>
    match readyCheck s with
    | some (check, argument) => refuse 0x07 tag (.refusedState check argument) s
    | none => setModeTo tag .ready (changeMode .ready (.request 0x07)) s
  | some .ready, .ready => setModeTo tag .ready id s
  | some .ready, .boring => setModeTo tag .ready (changeMode .ready (.request 0x07)) s
  | some .ready, .standstill => setModeTo tag .ready (changeMode .ready (.request 0x07)) s
  | some .ready, .halted => refuse 0x07 tag (.refusedState 0 0) s
  | some .boring, .ready => setModeTo tag .boring (changeMode .boring (.request 0x07)) s
  | some .boring, .boring => setModeTo tag .boring id s
  | some .boring, .standstill => setModeTo tag .boring (breakEvent 0x07) s
  | some .boring, .standby => refuse 0x07 tag (.refusedState 0 0) s
  | some .boring, .halted => refuse 0x07 tag (.refusedState 0 0) s
  | some .standstill, _ => refuse 0x07 tag (.refusedRange 1 0) s
  | some .halted, _ => refuse 0x07 tag (.refusedRange 1 0) s
  | none, _ => refuse 0x07 tag (.refusedRange 1 0) s

/-- HOLD (R166). -/
def doHold (tag : Byte) (switch : Nat) (s : State) : State :=
  match switchOfCode switch with
  | none => refuse 0x08 tag (.refusedRange 1 0) s
  | some isOn =>
    accept 0x08 tag (fun s => [.raw [holdsByte s.mdu.holds], u1 (permissionCode s.mdu.permitted)])
      (followHold .hostHold isOn s)

/-- STOP (R170). The reply is formed after all that the request brings, so its set shows a LOAD_TRIP that the activation
of a pending profile posts on leaving BORING (log 5). -/
def doStop (tag : Byte) (s : State) : State :=
  if s.mdu.mode = .standby then refuse 0x09 tag (.refusedState 0 0) s
  else accept 0x09 tag (fun s => [u1 s.mdu.mode.code, haltBytes s.mdu]) (postHalt .hostStop s)

/-- ACK_HALT (R171). -/
def doAckHalt (tag : Byte) (s : State) : State :=
  if s.mdu.mode ≠ .halted then refuse 0x0A tag (.refusedState 0 0) s
  else
    let removed := haltsByte (removableHalts s.mdu)
    accept 0x0A tag (fun s => [.raw [removed], haltBytes s.mdu, u1 s.mdu.mode.code]) (acknowledge s)

/-! ## The jobs -/

/-- CUTTERHEAD (R43). The range is checked before the mode (log 24). -/
def doCutterhead (tag : Byte) (speed direction : Nat) (s : State) : State :=
  if 600 < speed then refuse 0x0B tag (.refusedRange 1 0) s
  else
    match directionOfCode direction with
    | none => refuse 0x0B tag (.refusedRange 2 0) s
    | some d =>
      if 0 < speed ∧ s.mdu.mode ≠ .boring ∧ s.mdu.mode ≠ .standstill then refuse 0x0B tag (.refusedState 0 0) s
      else
        let s := evalStall (setHostTarget speed d s)
        accept 0x0B tag
          (fun s => [u2 s.chu.hostSpeed, u1 s.chu.hostDir.code, u2 s.chu.applied, fl s.chu.zone, u1 s.chu.drive.code])
          (if 0 < speed then breakEvent 0x0B s else s)

/-- STEER (R23). -/
def doSteer (tag : Byte) (v : Vector Nat 4) (s : State) : State :=
  match s.geometry with
  | none => refuse 0x0C tag (.refusedState 0 0) s
  | some g =>
    let stored := Vector.ofFn fun i => min g.pairMaxPressure v[i]
    reply 0x0C tag (if stored = v then .accepted else .clamped) (allGroups.map fun i => u2 stored[i])
      (setSetpoints stored s)

/-- CHAMBER_TRIM (R68). -/
def doChamberTrim (tag : Byte) (trim : Int) (s : State) : State :=
  let stored := clampInt (-100) 100 trim
  let s := chamberRetest (s.onFcu fun f => { f with trim := stored })
  reply 0x0D tag (if stored = trim then .accepted else .clamped) [.num 1 stored, .num 2 (setPoint s)] s

/-! ## Plans and segments -/

/-- A slot's index, if there is such a slot. -/
def slotOf (n : Nat) : Option (Fin 128) := if h : n < 128 then some ⟨n, h⟩ else none

/-- WRITE_STEP (R112). -/
def doWriteStep (tag : Byte) (slot : Nat) (e : StepFields) (s : State) : State :=
  match slotOf slot with
  | none => refuse 0x0E tag (.refusedRange 1 0) s
  | some n =>
    if s.bld.plan.active then refuse 0x0E tag .refusedBusy s
    else
      match stepFailure e with
      | some (field, failure) => refuse 0x0E tag (.refusedRange field failure) s
      | none => accept 0x0E tag (fun _ => []) (s.onBld fun b => { b with table := b.table.set n (stepOfFields e) })

/-- READ_STEP (R112). -/
def doReadStep (tag : Byte) (slot : Nat) (s : State) : State :=
  match slotOf slot with
  | none => refuse 0x0F tag (.refusedRange 1 0) s
  | some n => accept 0x0F tag (fun s => stepBytes s.bld.table[n]) s

/-- BUILD_START may be accepted: the mode, the open ring and the ERECTOR station (R114). -/
def startAllowed (s : State) : Bool :=
  (s.mdu.mode == .boring || s.mdu.mode == .standstill) && !s.rgu.current.buildDone && s.online 7

/-- BUILD_START (R114). The reply carries the plan state at the end of all that the first step's issue brings within the
event: the steps that follow it and THU's words (log 18). In STANDSTILL the break event comes after all of that, where
R174 lets it come before or after the plan's word to MDU (log 4). -/
def doBuildStart (tag : Byte) (slot : Nat) (s : State) : State :=
  match slotOf slot with
  | none => refuse 0x10 tag (.refusedRange 1 0) s
  | some n =>
    if s.bld.plan.active then refuse 0x10 tag .refusedBusy s
    else if startAllowed s then
      accept 0x10 tag (fun s => [u1 s.bld.plan.code]) (breakEvent 0x10 (startPlan n s))
    else refuse 0x10 tag (.refusedState 0 0) s

/-- BUILD_PAUSE (R127). -/
def doBuildPause (tag : Byte) (s : State) : State :=
  if s.bld.plan.busy then accept 0x11 tag (fun _ => []) (pausePlan .host s)
  else if s.bld.plan.active then accept 0x11 tag (fun _ => []) s
  else refuse 0x11 tag (.refusedState 0 0) s

/-- A PAUSED plan in a mode that lets it resume (R128). -/
def resumeAllowed (s : State) : Bool :=
  s.bld.plan.pauseCause.isSome && (s.mdu.mode == .ready || s.mdu.mode == .boring || s.mdu.mode == .standstill)

/-- BUILD_RESUME (R128). -/
def doBuildResume (tag : Byte) (s : State) : State :=
  if resumeAllowed s then accept 0x12 tag (fun _ => []) (resumePlan s) else refuse 0x12 tag (.refusedState 0 0) s

/-- BUILD_ABORT (R130). -/
def doBuildAbort (tag : Byte) (s : State) : State :=
  if s.bld.plan.active then accept 0x13 tag (fun _ => []) (faultActive .aborted s)
  else refuse 0x13 tag (.refusedState 0 0) s

/-- The segment is recorded; a full list sets build_done, with a BUILD_DONE notice (R133). -/
def recordManual (kind : SegKind) (start width : Nat) (s : State) : State :=
  let s := appendSegment kind start width .manual s
  if segmentsPlaced s = segmentCount s then
    setBuildDone (notify .buildDone [u2 s.rgu.current.number, u1 (segmentsPlaced s)] s)
  else s

/-- RECORD_SEGMENT (R133, R195). -/
def doRecordSegment (tag : Byte) (kind start width : Nat) (s : State) : State :=
  match segKindOfCode kind with
  | none => refuse 0x14 tag (.refusedRange 1 0) s
  | some k =>
    if 15 < start then refuse 0x14 tag (.refusedRange 2 0) s
    else if width < 1 ∨ 6 < width then refuse 0x14 tag (.refusedRange 3 0) s
    else if s.bld.plan.active = true ∨ s.geometry = none then refuse 0x14 tag (.refusedState 0 0) s
    else
      match listCheck s k with
      | some .ringFull => refuse 0x14 tag (.refusedState 1 0) s
      | some _ => refuse 0x14 tag (.refusedState 2 0) s
      | none => accept 0x14 tag (fun _ => []) (recordManual k start width s)

/-! ## Grout lines and pairs -/

/-- A line goes to FLUSHING, and its flush timer starts (R96). -/
def startFlush (i : Fin 6) (s : State) : State :=
  onLine i (fun l => { l with flushTimer := s.after s.profile.tFlush }) (leaveTo i .flushing s)

/-- A line may be flushed: BLOCKED or IDLE with its station ONLINE (R96). -/
def flushAllowed (s : State) (i : Fin 6) : Bool :=
  ((s.line i).state == .blocked || (s.line i).state == .idle) && s.online (groutAddress i)

/-- A line's index among the operands of GROUT_LINE, if there is such a line (R96). -/
def groutLineIndex (n : Nat) : Option (Fin 6) := if h : n < 6 then some ⟨n, h⟩ else none

/-- The reply data of GROUT_LINE: the line's state (R96, R98). -/
def lineData (i : Fin 6) (s : State) : List Field := [u1 (s.line i).state.code]

/-- GROUT_LINE with the action FLUSH, or with none of the three (R96). -/
def doGroutLineFlush (tag : Byte) (line action : Nat) (s : State) : State :=
  match groutLineIndex line with
  | none => refuse 0x15 tag (.refusedRange 1 0) s
  | some i =>
    if action ≠ 0 then refuse 0x15 tag (.refusedRange 2 0) s
    else if (s.line i).state = .flushing then refuse 0x15 tag .refusedBusy s
    else if flushAllowed s i then accept 0x15 tag (lineData i) (startFlush i s)
    else refuse 0x15 tag (.refusedState 0 0) s

/-- GROUT_LINE with the action ISOLATE (R98). -/
def doGroutLineIsolate (tag : Byte) (line : Nat) (s : State) : State :=
  match groutLineIndex line with
  | none => refuse 0x15 tag (.refusedRange 1 0) s
  | some i =>
    if (s.line i).state = .flushing then refuse 0x15 tag .refusedBusy s
    else if (s.line i).state = .isolated .host then accept 0x15 tag (lineData i) s
    else accept 0x15 tag (lineData i) (leaveTo i (.isolated .host) s)

/-- A line may be reinstated: ISOLATED, its station ONLINE and the geometry record set (R100). -/
def reinstateAllowed (s : State) (i : Fin 6) : Bool :=
  (s.line i).state.cause.isSome && s.online (groutAddress i) && s.geometry.isSome

/-- GROUT_LINE with the action REINSTATE (R100). The reply is formed after the dosing test of R104, so that its state may
be INJECTING (log 20). -/
def doGroutLineReinstate (tag : Byte) (line : Nat) (s : State) : State :=
  match groutLineIndex line with
  | none => refuse 0x15 tag (.refusedRange 1 0) s
  | some i =>
    if reinstateAllowed s i then
      accept 0x15 tag (fun s => lineData i s ++ [i4 (s.line i).owed]) (returnLine i s)
    else refuse 0x15 tag (.refusedState 0 0) s

/-- A pair may be reinstated (R37). -/
def pairAllowed (s : State) (i : Fin 16) : Bool :=
  (s.pair i).state.cause.isSome && (s.pair i).tag.isNone && s.online (thrustAddress (stationOf i))
    && (s.pair i).lastStatus == some .ok

/-- PAIR_REINSTATE (R37). -/
def doPairReinstate (tag : Byte) (pair : Nat) (s : State) : State :=
  if h : pair < 16 then
    if pairAllowed s ⟨pair, h⟩ then accept 0x16 tag (fun _ => []) (afterThrust (reinstatePair ⟨pair, h⟩ s))
    else refuse 0x16 tag (.refusedState 0 0) s
  else refuse 0x16 tag (.refusedRange 1 0) s

/-! ## Stations and rings -/

/-- STATION_ENABLE (R185). -/
def doStationEnable (tag : Byte) (address switch : Nat) (s : State) : State :=
  if h : 1 ≤ address ∧ address ≤ 13 then
    let i : Fin 13 := ⟨address - 1, by omega⟩
    match switchOfCode switch with
    | none => refuse 0x17 tag (.refusedRange 2 0) s
    | some isOn =>
      if isOn = false ∧ address ≤ 7 ∧ s.mdu.mode ≠ .standby then refuse 0x17 tag (.refusedState 0 0) s
      else
        accept 0x17 tag (fun s => [fl (s.station i).enabled, u1 (s.station i).link.code])
          (if isOn then enableStation i s else disableStation i s)
  else refuse 0x17 tag (.refusedRange 1 0) s

/-- A reply window is set: at once while no visit is in flight, pending otherwise (R187). -/
def setWindow (window : Nat) (s : State) : State :=
  s.onSlc fun l => if l.phase = .none then { l with window } else { l with nextWindow := some window }

/-- SET_LINK_TIMING (R187). -/
def doSetLinkTiming (tag : Byte) (window : Nat) (s : State) : State :=
  if window < 2 ∨ 50 < window then refuse 0x18 tag (.refusedRange 1 0) s
  else accept 0x18 tag (fun s => [u1 s.slc.window, opt 1 s.slc.nextWindow]) (setWindow window s)

/-- SET_RING_NUMBER (R148). -/
def doSetRingNumber (tag : Byte) (number : Nat) (s : State) : State :=
  if number = 0 ∨ 65535 < number then refuse 0x19 tag (.refusedRange 1 0) s
  else if s.mdu.mode ≠ .standby then refuse 0x19 tag (.refusedState 0 0) s
  else if (newestEntry number s.rgu.log).isSome then refuse 0x19 tag (.refusedRange 1 3) s
  else accept 0x19 tag (fun s => [u2 s.rgu.current.number]) (reopenRing number s)

/-- GET_RING (R147). -/
def doGetRing (tag : Byte) (s : State) : State := accept 0x1A tag ringData s

/-- GET_LOG_ENTRY (R147). -/
def doGetLogEntry (tag : Byte) (number : Nat) (s : State) : State :=
  if number = 0 ∨ 65535 < number then refuse 0x1B tag (.refusedRange 1 0) s
  else
    match newestEntry number s.rgu.log with
    | none => refuse 0x1B tag (.refusedRange 1 3) s
    | some e => reply 0x1B tag .accepted (entryData e) s

/-- GET_MUCK (R82). -/
def doGetMuck (tag : Byte) (s : State) : State := accept 0x1C tag muckData s

/-- RESTART: the reply first, then the receive queue is discarded and every unit restarts (R199). -/
def doRestart (tag : Byte) (s : State) : State :=
  restartUnits ((accept 0x1D tag (fun _ => []) s).onHlc fun h => { h with queue := [] })

end Sys2Proof.Machine
end

