-- ==== Sys2Proof/Machine/Links.lean ====
section
/-! DEFINITION. The meanings of the request commands: each takes its request from the receive queue and does
what the request's rule states. A request that cannot be the one taken changes nothing (log 2). -/

namespace Sys2Proof.Machine

/-- GET_STATUS (R198). -/
def execGetStatus (tag : Byte) (part : Nat) (s : State) : Host.Outcome State Fault Refusal :=
  finish (takeRequest (.getStatus tag part) (doGetStatus tag part) s)

/-- SET_GEOMETRY (R151). -/
def execSetGeometry (tag : Byte) (fields : Geometry) (s : State) : Host.Outcome State Fault Refusal :=
  finish (takeRequest (.setGeometry tag fields) (doSetGeometry tag fields) s)

/-- GET_GEOMETRY (R154). -/
def execGetGeometry (tag : Byte) (s : State) : Host.Outcome State Fault Refusal :=
  finish (takeRequest (.getGeometry tag) (doGetGeometry tag) s)

/-- WRITE_PROFILE (R153). -/
def execWriteProfile (tag : Byte) (name : Nat) (fields : Profile) (s : State) : Host.Outcome State Fault Refusal :=
  finish (takeRequest (.writeProfile tag name fields) (doWriteProfile tag name fields) s)

/-- READ_PROFILE (R154). -/
def execReadProfile (tag : Byte) (name : Nat) (s : State) : Host.Outcome State Fault Refusal :=
  finish (takeRequest (.readProfile tag name) (doReadProfile tag name) s)

/-- SELECT_PROFILE (R155). -/
def execSelectProfile (tag : Byte) (name : Nat) (s : State) : Host.Outcome State Fault Refusal :=
  finish (takeRequest (.selectProfile tag name) (doSelectProfile tag name) s)

/-- SET_MODE (R162). -/
def execSetMode (tag : Byte) (mode : Nat) (s : State) : Host.Outcome State Fault Refusal :=
  finish (takeRequest (.setMode tag mode) (doSetMode tag mode) s)

/-- HOLD (R166). -/
def execHold (tag : Byte) (switch : Nat) (s : State) : Host.Outcome State Fault Refusal :=
  finish (takeRequest (.hold tag switch) (doHold tag switch) s)

/-- STOP (R170). -/
def execStop (tag : Byte) (s : State) : Host.Outcome State Fault Refusal :=
  finish (takeRequest (.stop tag) (doStop tag) s)

/-- ACK_HALT (R171). -/
def execAckHalt (tag : Byte) (s : State) : Host.Outcome State Fault Refusal :=
  finish (takeRequest (.ackHalt tag) (doAckHalt tag) s)

/-- CUTTERHEAD (R43). -/
def execCutterhead (tag : Byte) (speed direction : Nat) (s : State) : Host.Outcome State Fault Refusal :=
  finish (takeRequest (.cutterhead tag speed direction) (doCutterhead tag speed direction) s)

/-- CHAMBER_TRIM (R68). -/
def execChamberTrim (tag : Byte) (trim : Int) (s : State) : Host.Outcome State Fault Refusal :=
  finish (takeRequest (.chamberTrim tag trim) (doChamberTrim tag trim) s)

/-- WRITE_STEP (R112). -/
def execWriteStep (tag : Byte) (slot : Nat) (entry : StepFields) (s : State) : Host.Outcome State Fault Refusal :=
  finish (takeRequest (.writeStep tag slot entry) (doWriteStep tag slot entry) s)

/-- READ_STEP (R112). -/
def execReadStep (tag : Byte) (slot : Nat) (s : State) : Host.Outcome State Fault Refusal :=
  finish (takeRequest (.readStep tag slot) (doReadStep tag slot) s)

/-- BUILD_START (R114). -/
def execBuildStart (tag : Byte) (slot : Nat) (s : State) : Host.Outcome State Fault Refusal :=
  finish (takeRequest (.buildStart tag slot) (doBuildStart tag slot) s)

/-- BUILD_PAUSE (R127). -/
def execBuildPause (tag : Byte) (s : State) : Host.Outcome State Fault Refusal :=
  finish (takeRequest (.buildPause tag) (doBuildPause tag) s)

/-- BUILD_RESUME (R128). -/
def execBuildResume (tag : Byte) (s : State) : Host.Outcome State Fault Refusal :=
  finish (takeRequest (.buildResume tag) (doBuildResume tag) s)

/-- BUILD_ABORT (R130). -/
def execBuildAbort (tag : Byte) (s : State) : Host.Outcome State Fault Refusal :=
  finish (takeRequest (.buildAbort tag) (doBuildAbort tag) s)

/-- RECORD_SEGMENT (R133). -/
def execRecordSegment (tag : Byte) (kind start width : Nat) (s : State) : Host.Outcome State Fault Refusal :=
  finish (takeRequest (.recordSegment tag kind start width) (doRecordSegment tag kind start width) s)

/-- GROUT_LINE_ISOLATE (R98). -/
def execGroutLineIsolate (tag : Byte) (line : Nat) (s : State) : Host.Outcome State Fault Refusal :=
  finish (takeRequest (.groutLineIsolate tag line) (doGroutLineIsolate tag line) s)

/-- GROUT_LINE_REINSTATE (R100). -/
def execGroutLineReinstate (tag : Byte) (line : Nat) (s : State) : Host.Outcome State Fault Refusal :=
  finish (takeRequest (.groutLineReinstate tag line) (doGroutLineReinstate tag line) s)

/-- PAIR_REINSTATE (R37). -/
def execPairReinstate (tag : Byte) (pair : Nat) (s : State) : Host.Outcome State Fault Refusal :=
  finish (takeRequest (.pairReinstate tag pair) (doPairReinstate tag pair) s)

/-- STATION_ENABLE (R185). -/
def execStationEnable (tag : Byte) (address switch : Nat) (s : State) : Host.Outcome State Fault Refusal :=
  finish (takeRequest (.stationEnable tag address switch) (doStationEnable tag address switch) s)

/-- SET_LINK_TIMING (R187). -/
def execSetLinkTiming (tag : Byte) (window : Nat) (s : State) : Host.Outcome State Fault Refusal :=
  finish (takeRequest (.setLinkTiming tag window) (doSetLinkTiming tag window) s)

/-- SET_RING_NUMBER (R148). -/
def execSetRingNumber (tag : Byte) (number : Nat) (s : State) : Host.Outcome State Fault Refusal :=
  finish (takeRequest (.setRingNumber tag number) (doSetRingNumber tag number) s)

/-- GET_RING (R147). -/
def execGetRing (tag : Byte) (s : State) : Host.Outcome State Fault Refusal :=
  finish (takeRequest (.getRing tag) (doGetRing tag) s)

/-- GET_LOG_ENTRY (R147). -/
def execGetLogEntry (tag : Byte) (number : Nat) (s : State) : Host.Outcome State Fault Refusal :=
  finish (takeRequest (.getLogEntry tag number) (doGetLogEntry tag number) s)

/-- GET_MUCK (R82). -/
def execGetMuck (tag : Byte) (s : State) : Host.Outcome State Fault Refusal :=
  finish (takeRequest (.getMuck tag) (doGetMuck tag) s)

/-- RESTART (R199). -/
def execRestart (tag : Byte) (s : State) : Host.Outcome State Fault Refusal :=
  finish (takeRequest (.restart tag) (doRestart tag) s)

/-- STEER (R23): the pressures of CROWN, RIGHT, INVERT and LEFT. -/
def execSteer (tag : Byte) (crown right invert left : Nat) (s : State) : Host.Outcome State Fault Refusal :=
  finish (takeRequest (.steer tag crown right invert left) (doSteer tag #v[crown, right, invert, left]) s)

/-- GROUT_LINE_FLUSH (R96). The actions 1 and 2 are ISOLATE and REINSTATE, rows of their own: with them this
command cannot be the one taken (log 2). -/
def execGroutLineFlush (tag : Byte) (line action : Nat) (s : State) : Host.Outcome State Fault Refusal :=
  finish (if action = 1 ∨ action = 2 then s
    else takeRequest (.groutLineFlush tag line action) (doGroutLineFlush tag line action) s)

end Sys2Proof.Machine
end

