-- ==== Sys2Proof/Machine/Dispatch.lean ====
section
/-! DEFINITION. The dispatch: one arm per command. -/

namespace Sys2Proof.Machine

/-- A command's effect on everything but the queue. -/
def exec (i : Instr) (s : State) : Host.Outcome State Fault Refusal :=
  match i with
  | .advPPulse a => Sys2Proof.Machine.execAdvPPulse a s
  | .beltPPulse => Sys2Proof.Machine.execBeltPPulse s
  | .powerOnReset => Sys2Proof.Machine.execPowerOnReset s
  | .resetEnd => Sys2Proof.Machine.execResetEnd s
  | .hostFrameReceived a => Sys2Proof.Machine.execHostFrameReceived a s
  | .gapTimerExpiry => Sys2Proof.Machine.execGapTimerExpiry s
  | .unknownRequestKind => Sys2Proof.Machine.execUnknownRequestKind s
  | .hostFrameSent => Sys2Proof.Machine.execHostFrameSent s
  | .commandFrameSent => Sys2Proof.Machine.execCommandFrameSent s
  | .stationReply a => Sys2Proof.Machine.execStationReply a s
  | .replyWindowExpiry => Sys2Proof.Machine.execReplyWindowExpiry s
  | .groupShortTimerExpiry => Sys2Proof.Machine.execGroupShortTimerExpiry s
  | .releaseTimerExpiry a => Sys2Proof.Machine.execReleaseTimerExpiry a s
  | .reseatTimerExpiry a => Sys2Proof.Machine.execReseatTimerExpiry a s
  | .stallTimerExpiry => Sys2Proof.Machine.execStallTimerExpiry s
  | .underTimerExpiry => Sys2Proof.Machine.execUnderTimerExpiry s
  | .excavTimerExpiry => Sys2Proof.Machine.execExcavTimerExpiry s
  | .ageTimerExpiry => Sys2Proof.Machine.execAgeTimerExpiry s
  | .idleTimerExpiry a => Sys2Proof.Machine.execIdleTimerExpiry a s
  | .holdTimerExpiry a => Sys2Proof.Machine.execHoldTimerExpiry a s
  | .flushTimerExpiry a => Sys2Proof.Machine.execFlushTimerExpiry a s
  | .gshortTimerExpiry => Sys2Proof.Machine.execGshortTimerExpiry s
  | .stepTimerExpiry => Sys2Proof.Machine.execStepTimerExpiry s
  | .standstillTimerExpiry => Sys2Proof.Machine.execStandstillTimerExpiry s
  | .getStatus a b => Sys2Proof.Machine.execGetStatus a b s
  | .setGeometry a b => Sys2Proof.Machine.execSetGeometry a b s
  | .getGeometry a => Sys2Proof.Machine.execGetGeometry a s
  | .writeProfile a b c => Sys2Proof.Machine.execWriteProfile a b c s
  | .readProfile a b => Sys2Proof.Machine.execReadProfile a b s
  | .selectProfile a b => Sys2Proof.Machine.execSelectProfile a b s
  | .setMode a b => Sys2Proof.Machine.execSetMode a b s
  | .hold a b => Sys2Proof.Machine.execHold a b s
  | .stop a => Sys2Proof.Machine.execStop a s
  | .ackHalt a => Sys2Proof.Machine.execAckHalt a s
  | .cutterhead a b c => Sys2Proof.Machine.execCutterhead a b c s
  | .steer a b c d e => Sys2Proof.Machine.execSteer a b c d e s
  | .chamberTrim a b => Sys2Proof.Machine.execChamberTrim a b s
  | .writeStep a b c => Sys2Proof.Machine.execWriteStep a b c s
  | .readStep a b => Sys2Proof.Machine.execReadStep a b s
  | .buildStart a b => Sys2Proof.Machine.execBuildStart a b s
  | .buildPause a => Sys2Proof.Machine.execBuildPause a s
  | .buildResume a => Sys2Proof.Machine.execBuildResume a s
  | .buildAbort a => Sys2Proof.Machine.execBuildAbort a s
  | .recordSegment a b c d => Sys2Proof.Machine.execRecordSegment a b c d s
  | .groutLineFlush a b c => Sys2Proof.Machine.execGroutLineFlush a b c s
  | .groutLineIsolate a b => Sys2Proof.Machine.execGroutLineIsolate a b s
  | .groutLineReinstate a b => Sys2Proof.Machine.execGroutLineReinstate a b s
  | .pairReinstate a b => Sys2Proof.Machine.execPairReinstate a b s
  | .stationEnable a b c => Sys2Proof.Machine.execStationEnable a b c s
  | .setLinkTiming a b => Sys2Proof.Machine.execSetLinkTiming a b s
  | .setRingNumber a b => Sys2Proof.Machine.execSetRingNumber a b s
  | .getRing a => Sys2Proof.Machine.execGetRing a s
  | .getLogEntry a b => Sys2Proof.Machine.execGetLogEntry a b s
  | .getMuck a => Sys2Proof.Machine.execGetMuck a s
  | .restart a => Sys2Proof.Machine.execRestart a s
  | .hostByteReceived a b => Sys2Proof.Machine.execHostByteReceived a b s
  | .requestLengthMismatch => Sys2Proof.Machine.execRequestLengthMismatch s

end Sys2Proof.Machine
end

