-- ==== Sys2Proof/Machine/Timing.lean ====
section
/-! DEFINITION. What the block does by itself when no command waits: it takes the request at the head of its
receive queue, its timers run out, and its clock goes on (log 3). -/

namespace Sys2Proof.Machine

/-- The command, if the timer has run out. -/
def dueTimer (now : Nat) (t : Timer) (c : Instr) : List Instr :=
  match t with
  | .running expiry => if expiry ≤ now then [c] else []
  | .stopped => []

/-- The command, if the marked timer has run out. -/
def dueMark (now : Nat) (t : MarkTimer) (c : Instr) : List Instr :=
  match t with
  | .running expiry => if expiry ≤ now then [c] else []
  | .stopped => []
  | .expired => []

/-- The expiry commands of the timers that have run out, in the order of the blocks. -/
def dueExpiries (s : State) : List Instr :=
  let now := s.now
  dueMark now s.thu.groupTimer .groupShortTimerExpiry
  ++ (s.thu.arcs.flatMap fun a =>
        dueTimer now a.release (.releaseTimerExpiry a.id) ++ dueMark now a.reseat (.reseatTimerExpiry a.id))
  ++ dueTimer now s.chu.stallTimer .stallTimerExpiry
  ++ dueTimer now s.fcu.underTimer .underTimerExpiry
  ++ (match s.fcu.transit with
      | e :: _ => dueTimer now e.age .ageTimerExpiry
      | [] => [])
  ++ dueTimer now s.fcu.excavTimer .excavTimerExpiry
  ++ (allLines.flatMap fun i =>
        dueTimer now (s.line i).idleTimer (.idleTimerExpiry i)
        ++ dueMark now (s.line i).holdTimer (.holdTimerExpiry i)
        ++ dueTimer now (s.line i).flushTimer (.flushTimerExpiry i))
  ++ dueTimer now s.gru.shortTimer .gshortTimerExpiry
  ++ dueTimer now s.bld.stepTimer .stepTimerExpiry
  ++ dueTimer now s.mdu.standstill .standstillTimerExpiry
  ++ dueTimer now s.slc.windowTimer .replyWindowExpiry
  ++ dueTimer now s.hlc.gapTimer .gapTimerExpiry

/-- The commands that the block originates by itself: the request it can take, and the timers that have run
out. -/
def selfCommands (s : State) : List Instr := (headCommand s).toList ++ dueExpiries s

/-- On an empty queue the commands that the block originates enter it; when there are none, a millisecond
passes. -/
def idleStep (s : State) : State :=
  match selfCommands s with
  | [] => { s with now := s.now + 1 }
  | cs => { s with pending := cs }

end Sys2Proof.Machine
end

