-- ==== Sys2Proof/Safety.lean ====
section
/-! DEFINITION. What claims about the coordinator speak of: which parts a command leaves as they were, which
request is taken, what goes out on the host link, and the laws that every step keeps. -/

namespace Sys2Proof.Machine

/-! ## Frames -/

/-- The parts of the state: the eleven blocks, the level of RESET-N, the clock and the queue. -/
inductive Part where
  | adv | thu | chu | fcu | gru | bld | rgu | pfs | mdu | slc | hlc | resetLine | clock | queue
  deriving DecidableEq, Repr

/-- A part of the state is unchanged. -/
def Part.same (p : Part) (s t : State) : Prop :=
  match p with
  | .adv => t.adv = s.adv
  | .thu => t.thu = s.thu
  | .chu => t.chu = s.chu
  | .fcu => t.fcu = s.fcu
  | .gru => t.gru = s.gru
  | .bld => t.bld = s.bld
  | .rgu => t.rgu = s.rgu
  | .pfs => t.pfs = s.pfs
  | .mdu => t.mdu = s.mdu
  | .slc => t.slc = s.slc
  | .hlc => t.hlc = s.hlc
  | .resetLine => t.resetHeld = s.resetHeld
  | .clock => t.now = s.now
  | .queue => t.pending = s.pending

/-- Every part but those listed is unchanged. -/
def onlyChanges (parts : List Part) (s t : State) : Prop := ∀ p : Part, p ∉ parts → p.same s t

/-! ## Requests and what goes out -/

/-- The request command `i` is the one that HLC takes: it stands at the head of the receive queue, or the queue is
empty and it is taken as it arrives (R194). -/
def takes (i : Instr) (s : State) : Prop :=
  canTake s = true ∧ (s.hlc.queue = [] ∨ ∃ f fs, s.hlc.queue = f :: fs ∧ requestOf f = some i)

/-- The frame being sent, then the replies that wait: what leaves the part before any further notice (R196). -/
def outgoing (s : State) : List Frame := s.hlc.sending.toList ++ s.hlc.replies

/-- A request has been answered: its reply is the last of what goes out, the request is taken from the receive
queue, and none is in process (R194, R195, R196). R196 lets a reply and a notice of the same request reach the host
in either order; that the reply goes first also from an idle transmitter is the model's reading, log 7. -/
def answered (kind : Nat) (tag : Byte) (r : Result) (data : List Field) (s t : State) : Prop :=
  outgoing t = outgoing s ++ [replyFrame (BitVec.ofNat 8 kind) tag r (fieldBytes data)]
  ∧ t.hlc.queue = s.hlc.queue.drop 1 ∧ t.hlc.inProcess = false

/-- The receiver of the host link is unchanged. -/
def receiverSame (s t : State) : Prop :=
  t.hlc.rx = s.hlc.rx ∧ t.hlc.bytes = s.hlc.bytes ∧ t.hlc.gapTimer = s.hlc.gapTimer

/-- All that waits to leave the part, in the order in which it leaves if nothing more comes (R196). -/
def transmission (s : State) : List Frame := outgoing s ++ s.hlc.notices

/-- The host link receives nothing, takes and answers no request, and no notice is raised. -/
def linkQuiet (s t : State) : Prop :=
  receiverSame s t ∧ t.hlc.queue = s.hlc.queue ∧ t.hlc.inProcess = s.hlc.inProcess
  ∧ t.hlc.dropped = s.hlc.dropped ∧ transmission t = transmission s

/-- On the host link one notice is raised, and nothing else comes about: at a full queue the oldest notice goes
and the notices-dropped flag is set (R197). -/
def linkNotice (n : Frame) (s t : State) : Prop :=
  receiverSame s t ∧ t.hlc.queue = s.hlc.queue ∧ t.hlc.inProcess = s.hlc.inProcess
  ∧ if s.hlc.notices.length < Config.noticeCapacity then
      t.hlc.dropped = s.hlc.dropped ∧ transmission t = transmission s ++ [n]
    else t.hlc.dropped = true ∧ transmission t = outgoing s ++ s.hlc.notices.drop 1 ++ [n]

/-- On the host link notices may be raised, and nothing else comes about: what goes out before them stays as it
was, but that an idle transmitter takes one notice. -/
def linkNotices (s t : State) : Prop :=
  receiverSame s t ∧ t.hlc.queue = s.hlc.queue ∧ t.hlc.inProcess = s.hlc.inProcess
  ∧ (s.hlc.dropped = true → t.hlc.dropped = true)
  ∧ (outgoing t = outgoing s ∨ outgoing s = [] ∧ (outgoing t).length = 1)

/-- A request has been answered and has raised no notice. -/
def answeredQuietly (kind : Nat) (tag : Byte) (r : Result) (data : List Field) (s t : State) : Prop :=
  answered kind tag r data s t ∧ receiverSame s t ∧ t.hlc.notices = s.hlc.notices ∧ t.hlc.dropped = s.hlc.dropped

/-- A request has been refused: it is answered with the refusal, and nothing but the host link has changed. -/
def refused (kind : Nat) (tag : Byte) (r : Result) (s t : State) : Prop :=
  answeredQuietly kind tag r [] s t ∧ onlyChanges [.hlc] s t

/-- A request has been answered and has raised one notice (R197). -/
def answeredWithNotice (kind : Nat) (tag : Byte) (r : Result) (data : List Field) (n : Frame) (s t : State) : Prop :=
  answered kind tag r data s t ∧ receiverSame s t
  ∧ if s.hlc.notices.length < Config.noticeCapacity then
      t.hlc.notices = s.hlc.notices ++ [n] ∧ t.hlc.dropped = s.hlc.dropped
    else t.hlc.notices = s.hlc.notices.drop 1 ++ [n] ∧ t.hlc.dropped = true

/-! ## Arcs (R28, R29) -/

/-- An arc request passes the four tests of R29. -/
def State.admits (s : State) (r : ArcRequest) : Prop :=
  s.thu.arcs.length < 2
  ∧ (∀ i : Fin 16, arcSelects r.start r.width i = true →
      (s.pair i).tag = none ∧ ((s.pair i).state = .thrusting ∨ (s.pair i).state.cause ≠ none))
  ∧ s.profile.nMin
      ≤ (allPairs.filter fun i => !arcSelects r.start r.width i && (s.pair i).state == .thrusting).length
  ∧ ∀ g : Fin 4, ∃ i : Fin 16,
      groupOf i = g ∧ arcSelects r.start r.width i = false ∧ (s.pair i).state = .thrusting

/-- A selected pair is THRUSTING, so that a grant has a pair to release (R28). -/
def State.releases (s : State) (r : ArcRequest) : Bool :=
  allPairs.any fun i => arcSelects r.start r.width i && (s.pair i).state == .thrusting

/-- THU has granted an arc: its record is the last of the list, every selected pair carries its tag and the THRUSTING
ones are RELEASING; with none to release the arc is withdrawn at once (R28, R31). -/
def arcGranted (r : ArcRequest) (id : Nat) (s t : State) : Prop :=
  id = (if s.thu.arcs.any (fun a => a.id == 1) then 2 else 1)
  ∧ t.thu.arcs = s.thu.arcs ++ [
      { id, start := r.start, width := r.width, phase := if s.releases r then .withdrawing else .withdrawn,
        release := if s.releases r then .running (s.now + s.profile.tRelease * 1000) else .stopped,
        reseat := .stopped, placed := false, byBld := true }]
  ∧ t.thu.waiting = none ∧ t.thu.setpoints = s.thu.setpoints
  ∧ ∀ i : Fin 16, { t.pair i with commanded := (s.pair i).commanded } =
      if arcSelects r.start r.width i then
        { s.pair i with tag := some id,
                        state := if (s.pair i).state = .thrusting then .releasing else (s.pair i).state }
      else s.pair i

/-! ## Profile changes (R141) -/

/-- A profile activation with this step serial has been entered in the open record's list of changes: appended, or in
the fourth place of a full list, with "more changes" set (R141). -/
def changeEntered (p : ProfileName) (serial : Nat) (r r' : RingRecord) : Prop :=
  r'.changes = (if r.changes.length < 4 then r.changes else r.changes.take 3) ++ [{ serial, profile := p }]
  ∧ r'.moreChanges = (r.moreChanges || decide (4 ≤ r.changes.length))

/-! ## The law of modes, holds and halts (R157, R165, R167, R172) -/

/-- The outputs and sets of MDU agree with its mode: ADV-PERMIT and the permission exactly in BORING with no hold
reason, HALT-OUT exactly in HALTED, no halt cause outside HALTED, the standstill timer only under its
conditions. A cause that is removable at its addition stays so (R168). -/
def Mdu.Lawful (m : Mdu) : Prop :=
  m.permitted = advanceAllowed m ∧ m.advPermit = m.permitted ∧ m.haltOut = (m.mode == .halted)
  ∧ (m.mode ≠ .halted → haltsEmpty m.halts = true)
  ∧ (m.standstill ≠ .stopped → standstillConditions m = true)
  ∧ ∀ c ∈ [HaltCause.stall, .overExcavation, .hostStop], m.halts[c.index] ≠ some false

/-- MDU with one hold reason in the set or out of it, and the permission that follows (R164, R165). -/
def Mdu.withHold (r : HoldReason) (member : Bool) (m : Mdu) : Mdu :=
  let m := { m with holds := m.holds.set r.index member }
  { m with permitted := advanceAllowed m, advPermit := advanceAllowed m }

/-- A hold reason has become a member, or has ceased to be one: at a change one HOLD_CHANGED notice is raised, and
otherwise nothing comes about (R164). -/
def holdFollows (r : HoldReason) (member : Bool) (s t : State) : Prop :=
  t.mdu = s.mdu.withHold r member
  ∧ if s.mdu.holds[r.index] = member then linkQuiet s t
    else linkNotice (noticeFrame .holdChanged (holdChangedFields r t.mdu.holds t.mdu.permitted)) s t

/-- MDU has taken a halt cause outside STANDBY: the cause is a member, with its mark at addition if it is new, the
mode is HALTED, and the other causes and the holds stay (R165, R167, R168). -/
def Mdu.haltRaised (c : HaltCause) (m n : Mdu) : Prop :=
  n.mode = .halted ∧ n.haltOut = true ∧ n.permitted = false ∧ n.advPermit = false
  ∧ n.halts[c.index] = (if (m.halts[c.index]).isSome then m.halts[c.index] else some c.markAtAddition)
  ∧ (∀ d : HaltCause, d ≠ c → n.halts[d.index] = m.halts[d.index])
  ∧ n.holds = m.holds ∧ n.previous = (if m.mode = .halted then m.previous else m.mode)

/-- Of THU nothing has changed but the pressures commanded of the pairs. -/
def commandsOnly (u v : Thu) : Prop :=
  (∀ i : Fin 16, { v.pairs[i] with commanded := u.pairs[i].commanded } = u.pairs[i])
  ∧ { v with pairs := u.pairs } = u

/-- MDU is lawful, and a profile is pending in BORING alone. -/
def State.ModeLaw (s : State) : Prop := s.mdu.Lawful ∧ (s.pfs.next ≠ none → s.mdu.mode = .boring)

/-! ## The law of the bounded lists (R28, R74, R124, R141, R145, R194, R195, R197) -/

/-- Every queue, list and stack stays within the number of places it has. -/
def State.Bounded (s : State) : Prop :=
  s.hlc.queue.length ≤ Config.receiveCapacity ∧ s.hlc.replies.length ≤ Config.replyCapacity
  ∧ s.hlc.notices.length ≤ Config.noticeCapacity ∧ s.fcu.transit.length ≤ Config.transitCapacity
  ∧ s.rgu.log.length ≤ Config.logCapacity ∧ s.bld.stack.length ≤ Config.stackCapacity
  ∧ s.thu.arcs.length ≤ 2 ∧ s.rgu.current.changes.length ≤ 4

/-! ## The law of the pair pressures (R24, R25) -/

/-- Every THRUSTING pair is commanded its compensated pressure while advance is permitted, and hold_pressure
otherwise. -/
def State.PairsCommanded (s : State) : Prop :=
  ∀ i : Fin 16, (s.pair i).state = .thrusting →
    (s.pair i).commanded =
      if s.mdu.permitted then compensated s (groupOf i) else s.profile.holdPressure

/-! ## The law of the screw (R65, R67, R70) -/

/-- The screw command is within its cap, 0 under the under-support condition, in its states QUALIFYING and POSTED and in
STANDBY; the gate is OPEN exactly while it is above 0; the timer runs in QUALIFYING alone, and the under-support state
agrees with the condition, but that it may stay as R72 has it while the BULKHEAD station is not ONLINE (log 28). -/
def State.ScrewLaw (s : State) : Prop :=
  s.fcu.screw ≤ screwCap s ∧ s.fcu.gateOpen = decide (0 < s.fcu.screw)
  ∧ (underHeld s = true → s.fcu.screw = 0)
  ∧ (s.mdu.mode = .standby → s.fcu.screw = 0 ∧ s.fcu.regulator = .off)
  ∧ (retested s = true → s.fcu.under.standing = underSupport s)
  ∧ (s.fcu.underTimer ≠ .stopped → s.fcu.under = .qualifying)

/-! ## What MDU is told (R45, R113) -/

/-- MDU's drive-stopped and plan-busy values are those of CHU and BLD. -/
def State.Told (s : State) : Prop :=
  s.mdu.driveStopped = (s.chu.drive == .stopped) ∧ s.mdu.planBusy = s.bld.plan.busy

/-! ## The law of the advance measure (R2, R4 to R9, R16) -/

/-- The registers of ADV stay in their ranges; the step accumulator stays below the quantum in force, and every
profile's quantum is within its range. -/
def State.AdvanceLaw (s : State) : Prop :=
  s.adv.acc < s.profile.quantum ∧ s.adv.stroke ≤ Config.strokeMax ∧ s.adv.debt ≤ Config.rollbackMax
  ∧ s.adv.remVolume < 100 ∧ s.adv.remMass < 1000000 ∧ (∀ i : Fin 6, s.adv.remGrout[i] < 2560000)
  ∧ s.adv.serial < 65536 ∧ ∀ p : Fin 4, 10 ≤ (s.pfs.profiles[p]).quantum ∧ (s.pfs.profiles[p]).quantum ≤ 200

/-! ## The law of the cutterhead (R44, R45, R50, R52) -/

/-- The applied target and the torque ceiling are those of the host target, the zone flag and the settings in
force; the host asks for no speed outside BORING; H stays in its range. -/
def State.CutterLaw (s : State) : Prop :=
  s.chu.applied = appliedTarget s ∧ s.chu.ceiling = torqueCeiling s ∧ s.chu.loadIndex ≤ 40000
  ∧ s.chu.hostSpeed ≤ 600 ∧ (s.mdu.mode ≠ .boring → s.chu.hostSpeed = 0)

/-! ## The law of the grout lines (R101, R103, R104, section 5.1) -/

/-- The effective weights are those that R103 forms from the configured weights, which are the geometry record's
and sum to 256; the pool holds grout only while no line is in service; each timer belongs to its state; no line is
in service before the geometry record is set. -/
def State.GroutLaw (s : State) : Prop :=
  (∀ i : Fin 6, (s.line i).effective = effectiveWeight s.gru i)
  ∧ (s.gru.pool ≠ 0 → noneServing s.gru = true)
  ∧ (∀ i : Fin 6, ((s.line i).idleTimer ≠ .stopped → (s.line i).state = .injecting)
      ∧ ((s.line i).holdTimer ≠ .stopped → (s.line i).state = .holding)
      ∧ ((s.line i).flushTimer ≠ .stopped → (s.line i).state = .flushing))
  ∧ (s.gru.shortTimer ≠ .stopped → s.gru.shortfall = .qualifying)
  ∧ match s.geometry with
    | some g => g.lineWeight.toList.sum = 256 ∧ ∀ i : Fin 6, (s.line i).configured = some g.lineWeight[i]
    | none => ∀ i : Fin 6, (s.line i).configured = none ∧ (s.line i).state.cause.isSome = true

/-! ## The law of the build (R112 to R115, R119, R140, R142) -/

/-- The segment list of the open record holds at most N_seg entries, numbered in order, a KEY only at the last
place, and N_seg of them once build_done holds; the record is not both built and driven, since it then closes. -/
def State.SegmentLaw (s : State) : Prop :=
  s.rgu.current.segments.length ≤ segmentCount s
  ∧ (∀ n g, s.rgu.current.segments[n]? = some g → g.sequence = n + 1 ∧ (g.kind = .key → n + 1 = segmentCount s))
  ∧ (s.rgu.current.buildDone = true → s.rgu.current.segments.length = segmentCount s)
  ∧ ¬ (s.rgu.current.buildDone = true ∧ s.rgu.current.strokeDone = true)

/-- A plan is active only outside STANDBY and before build_done; only an active plan has a step in flight; the
segment of a PLACE under way still has its place in the list. -/
def State.BuildLaw (s : State) : Prop :=
  s.SegmentLaw
  ∧ (s.bld.plan.active = true → s.mdu.mode ≠ .standby ∧ s.rgu.current.buildDone = false)
  ∧ (s.bld.flight ≠ .none → s.bld.plan.active = true)
  ∧ ∀ number kind start width arc, s.bld.flight = .erector ⟨number, .place kind start width arc⟩ →
      listCheck s kind = none

/-- A plan has faulted with this cause: no step in flight, an operation in flight made the orphan, HOLD commanded of
the erector, the waiting arc request of a WITHDRAW cancelled, no background reseat, and the rest kept (R129). -/
def planFaulted (cause : PlanFault) (s t : State) : Prop :=
  t.bld.plan = .faulted cause ∧ t.bld.flight = .none ∧ t.bld.stepTimer = .stopped ∧ t.bld.command = .hold
  ∧ t.bld.background = none
  ∧ t.bld.orphan = (match s.bld.flight with
      | .erector op => some op
      | .none => s.bld.orphan | .orphan => s.bld.orphan | .admission => s.bld.orphan | .release _ => s.bld.orphan
      | .background => s.bld.orphan | .reseat _ => s.bld.orphan | .stroke => s.bld.orphan | .arcs => s.bld.orphan)
  ∧ (s.bld.flight = .admission → t.thu.waiting = none)
  ∧ t.bld.slot = s.bld.slot ∧ t.bld.stack = s.bld.stack ∧ t.bld.base = s.bld.base ∧ t.bld.held = s.bld.held
  ∧ t.bld.outcome = s.bld.outcome ∧ t.bld.table = s.bld.table ∧ t.bld.opNumber = s.bld.opNumber

/-- An erector operation with this work has begun: the next number, its command, and the plan RUNNING with it in flight
(R117). -/
def operationBegun (w : ErectorWork) (b c : Bld) : Prop :=
  c = { b with plan := .running, opNumber := nextNumber b.opNumber, command := w.action,
               flight := .erector { number := nextNumber b.opNumber, work := w } }

/-- A plan arc that a fault has reseated at THU: neither BLD nor THU has it RESEATING yet, and THU has it in flight
(R33, R129). -/
def arcToReseat (s : State) (a : PlanArc) : Bool :=
  a.phase != .reseating && (s.arc a.id).any fun b => b.phase != .reseating

/-! ## Loss of a station (R57, R71, R99, R130, R183) -/

/-- A halt cause has been posted: in STANDBY it is not taken (R167). -/
def haltPosted (c : HaltCause) (s t : State) : Prop :=
  if s.mdu.mode = .standby then t.mdu.mode = .standby ∧ t.mdu.halts = s.mdu.halts
  else s.mdu.Lawful → Mdu.haltRaised c s.mdu t.mdu

/-- The owner of an ONLINE station has taken its loss or its disabling, with the consequence of its role (R183). Where
a halt is posted this is said for a machine that does not leave BORING with a profile pending. -/
def lossTaken (r : Role) (s t : State) : Prop :=
  match r with
  | .drive => (s.mdu.mode = .boring → s.pfs.next = none) →
    t.chu = { s.chu with drive := .stopped, hostSpeed := 0, applied := 0, stallTimer := .stopped }
    ∧ haltPosted .driveLost s t
  | .bulkhead => (s.mdu.mode = .boring → s.pfs.next = none) →
    if s.fcu.faceBlind then t.fcu = s.fcu ∧ t.mdu = s.mdu
    else
      t.fcu = { s.fcu with faceBlind := true, regulator := if s.mdu.mode = .standby then .off else .blind,
                           screw := t.fcu.screw, gateOpen := t.fcu.gateOpen }
      ∧ (s.ScrewLaw → s.mdu.mode ≠ .standstill → t.fcu.screw = s.fcu.screw ∧ t.fcu.gateOpen = s.fcu.gateOpen)
      ∧ haltPosted .faceBlind s t
  | .thrust k => ∀ j : Fin 4, (t.pair (pairAt k j)).state = .faulted .stationLost
      ∧ (t.pair (pairAt k j)).lastPressure = (s.pair (pairAt k j)).lastPressure
      ∧ (t.pair (pairAt k j)).lastClear = (s.pair (pairAt k j)).lastClear
      ∧ (t.pair (pairAt k j)).lastStatus = (s.pair (pairAt k j)).lastStatus
  | .erector => if s.bld.plan.active then planFaulted .erectorLost s t else t.bld = s.bld ∧ t.mdu = s.mdu
  | .grout i =>
    (t.line i).state = (if (s.line i).state = .isolated .host then .isolated .host else .isolated .station)
    ∧ (t.line i).lastCount = none ∧ (t.line i).idleTimer = .stopped ∧ (t.line i).holdTimer = .stopped
    ∧ (t.line i).flushTimer = .stopped ∧ (t.line i).lastPressure = (s.line i).lastPressure
    ∧ (t.line i).pumpRunning = (s.line i).pumpRunning ∧ (t.line i).flushOpen = (s.line i).flushOpen
    ∧ if (s.line i).state.inService then
        (t.line i).owed = 0 ∧ ∀ j : Fin 6, (t.line j).effective = effectiveWeight t.gru j
      else (t.line i).owed = (s.line i).owed ∧ t.gru.pool = s.gru.pool
        ∧ ∀ j : Fin 6, j ≠ i → t.line j = s.line j

/-! ## The laws of the links (R177, R178, R181, R183, R187, R193, R196) -/

/-- The transmitter enable is asserted in SENDING alone and the reply window runs in LISTENING alone; positions,
windows and miss counts stay in their ranges, and no ONLINE station has three misses. -/
def State.StationLinkLaw (s : State) : Prop :=
  s.slc.txEnable = (s.slc.phase == .sending) ∧ (s.slc.windowTimer ≠ .stopped ↔ s.slc.phase = .listening)
  ∧ 1 ≤ s.slc.position ∧ s.slc.position ≤ 13 ∧ 2 ≤ s.slc.window ∧ s.slc.window ≤ 50
  ∧ (∀ w, s.slc.nextWindow = some w → 2 ≤ w ∧ w ≤ 50)
  ∧ ∀ i : Fin 13, (s.station i).misses ≤ 3 ∧ ((s.station i).link = .online → (s.station i).misses < 3)

/-- The partial frame fits the receiver's state and has at most 206 bytes; the gap timer runs while a frame is
being received; no request is left in process. -/
def State.HostLinkLaw (s : State) : Prop :=
  (match s.hlc.rx with
    | .hunting => s.hlc.bytes = []
    | .header => 1 ≤ s.hlc.bytes.length ∧ s.hlc.bytes.length ≤ 3
        ∧ (2 ≤ s.hlc.bytes.length → partialLength s.hlc.bytes ≤ 200)
    | .body => 4 ≤ s.hlc.bytes.length ∧ s.hlc.bytes.length < partialLength s.hlc.bytes + 6
        ∧ partialLength s.hlc.bytes ≤ 200)
  ∧ (s.hlc.gapTimer = .stopped ↔ s.hlc.rx = .hunting) ∧ s.hlc.inProcess = false

/-! ## Owed grout -/

/-- The absolute values of all that is owed, with the pool: while this stays below the saturation bound, no
transfer saturates. -/
def owedMagnitude (g : Gru) : Nat := (allLines.map fun i => (g.lines[i]).owed.natAbs).sum + g.pool.natAbs

end Sys2Proof.Machine
end

