-- ==== Sys2Proof/WellFormed.lean ====
section
/-! DEFINITION. Which commands can be given to the part.

A value outside the encoding of its field cannot be sent (R189, R201), so the operands of a request fit the
widths of section 11.5; an event names a timer that the part has. -/

namespace Sys2Proof

/-- A number fits an unsigned field of `w` bytes. -/
def fitsBytes (w v : Nat) : Bool := decide (v < 256 ^ w)

/-- The field values fit fields of the given widths, one for one. -/
def fieldsFit : List Nat → List Nat → Bool
  | [], [] => true
  | w :: ws, v :: vs => fitsBytes w v && fieldsFit ws vs
  | _, _ => false

/-- The operands of the command are ones that the host link, the station link or the part's own timers can
give. -/
def Instr.wellFormed : Instr → Bool
  | .advPPulse _ => true
  | .beltPPulse => true
  | .powerOnReset => true
  | .resetEnd => true
  | .hostFrameReceived f => decide (f.payload.length ≤ 200)
  | .gapTimerExpiry => true
  | .unknownRequestKind => true
  | .hostFrameSent => true
  | .commandFrameSent => true
  | .stationReply cs => !cs.isEmpty
  | .replyWindowExpiry => true
  | .groupShortTimerExpiry => true
  | .releaseTimerExpiry a => decide (a = 1 ∨ a = 2)
  | .reseatTimerExpiry a => decide (a = 1 ∨ a = 2)
  | .stallTimerExpiry => true
  | .underTimerExpiry => true
  | .excavTimerExpiry => true
  | .ageTimerExpiry => true
  | .idleTimerExpiry l => decide (l < 6)
  | .holdTimerExpiry l => decide (l < 6)
  | .flushTimerExpiry l => decide (l < 6)
  | .gshortTimerExpiry => true
  | .stepTimerExpiry => true
  | .standstillTimerExpiry => true
  | .getStatus _ p => fitsBytes 1 p
  | .setGeometry _ g => fieldsFit geometryWidths g.toFields
  | .getGeometry _ => true
  | .writeProfile _ n p => fitsBytes 1 n && fieldsFit profileWidths p.toFields
  | .readProfile _ n => fitsBytes 1 n
  | .selectProfile _ n => fitsBytes 1 n
  | .setMode _ m => fitsBytes 1 m
  | .hold _ w => fitsBytes 1 w
  | .stop _ => true
  | .ackHalt _ => true
  | .cutterhead _ v d => fitsBytes 2 v && fitsBytes 1 d
  | .steer _ c r i l => fitsBytes 2 c && fitsBytes 2 r && fitsBytes 2 i && fitsBytes 2 l
  | .chamberTrim _ x => decide (-32768 ≤ x ∧ x ≤ 32767)
  | .writeStep _ n e => fitsBytes 1 n && fieldsFit stepWidths e.toFields
  | .readStep _ n => fitsBytes 1 n
  | .buildStart _ n => fitsBytes 1 n
  | .buildPause _ => true
  | .buildResume _ => true
  | .buildAbort _ => true
  | .recordSegment _ k a w => fitsBytes 1 k && fitsBytes 1 a && fitsBytes 1 w
  | .groutLineFlush _ l a => fitsBytes 1 l && fitsBytes 1 a && decide (a ≠ 1 ∧ a ≠ 2)
  | .groutLineIsolate _ l => fitsBytes 1 l
  | .groutLineReinstate _ l => fitsBytes 1 l
  | .pairReinstate _ p => fitsBytes 1 p
  | .stationEnable _ a w => fitsBytes 1 a && fitsBytes 1 w
  | .setLinkTiming _ w => fitsBytes 1 w
  | .setRingNumber _ n => fitsBytes 2 n
  | .getRing _ => true
  | .getLogEntry _ n => fitsBytes 2 n
  | .getMuck _ => true
  | .restart _ => true
  | .hostByteReceived _ _ => true
  | .requestLengthMismatch => true

end Sys2Proof
end

