-- ==== Sys2Proof/Certificates/Slice0/Obligations.lean ====
section
/-! DEFINITION. The statements for the provers: what each command does and leaves alone, what reset leaves, and
the laws that every step keeps. Each names the rules it formalises; where it rests on a choice of the model it
names the log row. -/

section
open Sys2Proof Sys2Proof.Machine

/-! ## The step and its queue -/

/-- A step takes the command at the front of the queue and is `exec` of it on the state with the queue's rest
(log 1). On an empty queue the commands that the block originates enter it, and when there are none a millisecond
passes: the model's choice, log 3. -/
def Obligations.StepRunsFrontCommand : Prop :=
  (∀ (c : Instr) (cs : List Instr) (s : State),
    step { s with pending := c :: cs } = exec c { s with pending := cs })
  ∧ ∀ s : State, s.pending = [] → ∃ t, step s = .next t ∧
      if selfCommands s = [] then t.now = s.now + 1 ∧ onlyChanges [.clock] s t
      else t.pending = selfCommands s ∧ onlyChanges [.queue] s t

/-! ## Reset -/

/-- The state right after reset meets every law that the steps keep. -/
def Obligations.ResetMeetsEveryLaw : Prop :=
  State.reset.ModeLaw ∧ State.reset.Told ∧ State.reset.Bounded ∧ State.reset.PairsCommanded ∧ State.reset.ScrewLaw
  ∧ State.reset.AdvanceLaw ∧ State.reset.CutterLaw ∧ State.reset.GroutLaw ∧ State.reset.BuildLaw
  ∧ State.reset.StationLinkLaw ∧ State.reset.HostLinkLaw

/-- POWER_ON_RESET in ADV: S, P, B, the remainders and the serial at 0; profile A with quantum 50 active and the
geometry record UNSET, so that the first steps carry no figures; open ring 1 with stroke 0; neither STROKE_LIMIT nor
ROLLBACK_LIMIT posted (R19). -/
def Obligations.PowerOnResetOfAdvance : Prop :=
  ∀ s : State, ∃ t, exec .powerOnReset s = .next t
    ∧ t.adv = { stroke := 0, acc := 0, debt := 0, remVolume := 0, remMass := 0,
                remGrout := Vector.replicate 6 0, serial := 0 }
    ∧ nextSerial t.adv.serial = 1 ∧ t.pfs.active = .a ∧ t.profile.quantum = 50 ∧ t.geometry = none
    ∧ (∀ d, (stepRecord d t).volume = 0 ∧ (stepRecord d t).mass = 0
        ∧ (stepRecord d t).grout = Vector.replicate 6 0)
    ∧ t.rgu.current.number = 1 ∧ t.rgu.current.stroke = 0
    ∧ t.mdu.holds[HoldReason.strokeLimit.index] = false ∧ t.mdu.halts[HaltCause.rollbackLimit.index] = none

/-- POWER_ON_RESET in BLD (R135). -/
def Obligations.PowerOnResetOfBuild : Prop :=
  ∀ s : State, ∃ t, exec .powerOnReset s = .next t
    ∧ (∀ n : Fin 128, t.bld.table[n] = PlanStep.default) ∧ PlanStep.default.kind = .endPlan
    ∧ t.bld.plan = .idle ∧ t.bld.flight = .none ∧ t.bld.slot = 0 ∧ t.bld.stepTimer = .stopped ∧ t.bld.stack = []
    ∧ t.bld.base = 0 ∧ t.bld.held = none ∧ t.bld.outcome = 0 ∧ t.bld.arcs = [] ∧ t.bld.lastPlaced = none
    ∧ t.bld.background = none ∧ t.bld.opNumber = 0 ∧ t.bld.orphan = none ∧ t.bld.command = .hold
    ∧ nextNumber t.bld.opNumber = 1

/-- POWER_ON_RESET in the other units: every register at its reset value (R40, R59, R83, R110, R149, R161, R176,
R191). The origin and start time of the ramp, the trip condition, the loop count and the clock have no value in the
manual: log 6. That POWER_ON_RESET asserts RESET-N and keeps the queue of commands are log 17 and log 1. -/
def Obligations.PowerOnResetOfOtherUnits : Prop :=
  ∀ s : State, ∃ t, exec .powerOnReset s = .next t ∧ t.resetHeld = true ∧ t.pending = s.pending
    -- R40
    ∧ (∀ i : Fin 16, t.pair i =
        { state := .faulted .notReported, tag := none, commanded := 0, lastPressure := none, lastClear := none,
          lastStatus := none })
    ∧ t.thu.setpoints = Vector.replicate 4 0 ∧ t.thu.arcs = [] ∧ t.thu.waiting = none ∧ t.thu.groupTimer = .stopped
    -- R59
    ∧ t.chu.drive = .stopped ∧ t.chu.hostSpeed = 0 ∧ t.chu.hostDir = .cw ∧ t.chu.applied = 0
    ∧ t.chu.direction = .cw ∧ t.chu.ceiling = 0 ∧ t.chu.loadIndex = 0 ∧ t.chu.loadRatio = none
    ∧ t.chu.zone = false ∧ t.chu.stallTimer = .stopped ∧ t.chu.last = none
    -- R83
    ∧ t.fcu = { regulator := .off, screw := 0, gateOpen := false, trim := 0, last := none, binHalt := false,
                chamberHigh := false, under := .clear, underTimer := .stopped, faceBlind := true, transit := [],
                weighing := none, due := 0, measured := 0, excav := .normal, excavTimer := .stopped,
                underMark := false, earlyReleases := 0 }
    -- R110
    ∧ (∀ i : Fin 6, t.line i =
        { state := .isolated .station, configured := none, effective := 0, owed := 0, accrued := 0, delivered := 0,
          lastPressure := none, lastCount := none, pumpRunning := none, flushOpen := none, idleTimer := .stopped,
          holdTimer := .stopped, flushTimer := .stopped })
    ∧ t.gru.pool = 0 ∧ t.gru.figuresRing = 1 ∧ t.gru.shortfall = .normal ∧ t.gru.shortTimer = .stopped
    ∧ t.gru.nonePosted = true
    -- R149, R161
    ∧ t.rgu = { current := RingRecord.opened 1 0 .a, log := [] }
    ∧ t.pfs = { geometry := none, profiles := Vector.replicate 4 Profile.default, active := .a, next := none }
    -- R176
    ∧ t.mdu.mode = .standby ∧ t.mdu.previous = .standby
    ∧ (∀ r : HoldReason, t.mdu.holds[r.index] = decide (r = .groutNone))
    ∧ (∀ c : HaltCause, t.mdu.halts[c.index] = none)
    ∧ t.mdu.permitted = false ∧ t.mdu.advPermit = false ∧ t.mdu.haltOut = false ∧ t.mdu.driveStopped = true
    ∧ t.mdu.planBusy = false ∧ t.mdu.standstill = .stopped
    -- R191
    ∧ (∀ i : Fin 13, t.station i = { enabled := true, link := .notSeen, misses := 0 })
    ∧ t.slc.position = 1 ∧ t.slc.phase = .none ∧ t.slc.window = 8 ∧ t.slc.nextWindow = none
    ∧ t.slc.txEnable = false

/-- POWER_ON_RESET leaves the host link empty and idle, but for the notice that the posting of GROUT_NONE raises at
power-on, which is the first frame sent when the reset ends (R110, R164, R200; log 17). RESET_END releases RESET-N and
begins the round with a visit to address 1: the transmitter enable is asserted and the command frame of DRIVE is sent.
Where RESET-N was not asserted the round begins at the lowest enabled address, if there is one, and with a visit in
flight nothing changes: the model's choice, log 2. While RESET-N is asserted, pulses and received bytes, frames and
characters change nothing (R1, R73, R177, R179, R191, R193). -/
def Obligations.ResetEndBeginsTheRound : Prop :=
  (∀ s : State, ∃ t u, exec .powerOnReset s = .next t ∧ exec .resetEnd t = .next u
    ∧ t.hlc = { rx := .hunting, bytes := [], gapTimer := .stopped, queue := [], inProcess := false, replies := [],
                notices := [noticeFrame .holdChanged (holdChangedFields .groutNone t.mdu.holds t.mdu.permitted)],
                dropped := false, sending := none }
    ∧ u.hlc = { t.hlc with notices := [], sending := t.hlc.notices.head? }
    ∧ u.resetHeld = false ∧ u.slc.position = 1 ∧ u.slc.phase = .sending ∧ u.slc.txEnable = true
    ∧ u.slc.frame = commandFrame u 0)
  ∧ (∀ s : State, s.slc.phase = .none → ∃ t, exec .resetEnd s = .next t
    ∧ t.resetHeld = false ∧ t.slc.stations = s.slc.stations ∧ t.slc.window = s.slc.window
    ∧ (match nextStation s.slc (fun _ => true) with
      | some j => t.slc.position = addressOf j ∧ t.slc.phase = .sending ∧ t.slc.txEnable = true
          ∧ t.slc.frame = commandFrame s j
      | none => t.slc.position = s.slc.position ∧ t.slc.phase = .none ∧ t.slc.txEnable = false)
    ∧ ((s.station 0).enabled = true → t.slc.position = 1)
    ∧ onlyChanges [.slc, .hlc, .resetLine] s t ∧ linkQuiet s t)
  ∧ (∀ s : State, s.slc.phase ≠ .none → ∃ t, exec .resetEnd s = .next t ∧ onlyChanges [.hlc] s t ∧ linkQuiet s t)
  ∧ ∀ s : State, s.resetHeld = true →
    (∀ d, exec (.advPPulse d) s = .next s) ∧ exec .beltPPulse s = .next s
    ∧ (∀ f, exec (.hostFrameReceived f) s = .next s) ∧ (∀ b e, exec (.hostByteReceived b e) s = .next s)
    ∧ ∀ cs, exec (.stationReply cs) s = .next s

/-! ## Advance -/

/-- A reverse pulse raises the debt and leaves S, P, the remainders and the serial, sets the "rollback seen" flag,
and at the first of a debt makes ROLLBACK_LIMIT not removable. Above rollback_limit it posts ROLLBACK_LIMIT, which
halts the machine outside STANDBY; at or below the limit, and in STANDBY, nothing else changes (R2, R167). -/
def Obligations.ReversePulse : Prop :=
  ∀ s : State, s.resetHeld = false →
    (s.profile.rollbackLimit < min 2000 (s.adv.debt + 1) → s.mdu.mode = .boring → s.pfs.next = none) →
    ∃ t, exec (.advPPulse false) s = .next t
      ∧ t.adv = { s.adv with debt := min 2000 (s.adv.debt + 1) }
      ∧ t.rgu = { s.rgu with current :=
          { s.rgu.current with flags := { s.rgu.current.flags with rollbackSeen := true } } }
      ∧ t.fcu.transit = s.fcu.transit ∧ (∀ i : Fin 6, (t.line i).owed = (s.line i).owed)
      ∧ t.gru.pool = s.gru.pool
      ∧ ∃ m : Mdu, m = (if s.adv.debt = 0 ∧ haltMember s.mdu .rollbackLimit = true then
            { s.mdu with halts := s.mdu.halts.set HaltCause.rollbackLimit.index (some false) } else s.mdu)
          ∧ if s.profile.rollbackLimit < min 2000 (s.adv.debt + 1) ∧ s.mdu.mode ≠ .standby then
              (s.mdu.Lawful → Mdu.haltRaised .rollbackLimit m t.mdu)
              ∧ onlyChanges [.adv, .thu, .chu, .fcu, .gru, .bld, .rgu, .mdu, .hlc] s t ∧ linkNotices s t
            else t.mdu = m ∧ onlyChanges [.adv, .rgu, .mdu, .hlc] s t ∧ linkQuiet s t

/-- A repaying pulse takes 1 from B and credits nothing; at 0 it makes ROLLBACK_LIMIT removable, and the next forward
pulse is a credited one (R3). -/
def Obligations.RepayingPulse : Prop :=
  ∀ s : State, s.resetHeld = false → 0 < s.adv.debt → ∃ t, exec (.advPPulse true) s = .next t
    ∧ t.adv = { s.adv with debt := s.adv.debt - 1 }
    ∧ t.mdu = (if s.adv.debt = 1 ∧ haltMember s.mdu .rollbackLimit = true then
        { s.mdu with halts := s.mdu.halts.set HaltCause.rollbackLimit.index (some true) } else s.mdu)
    ∧ pulseClass true t.adv.debt = (if s.adv.debt = 1 then .credited else .repaying)
    ∧ onlyChanges [.adv, .mdu, .hlc] s t ∧ linkQuiet s t

/-- A credited pulse that does not bring P to Q adds 1 to S, saturating, and to P, and starts a running standstill timer
again. It changes nothing else, but that it completes an AWAIT_STROKE whose stroke S has reached; that is said whole
for a PAUSED plan, which issues nothing after it (R4, R123, R127, R172).
The model's own choices: the loop count (log 18) and the clock (log 3). -/
def Obligations.CreditedPulseWithoutStep : Prop :=
  (∀ s : State, s.resetHeld = false → s.adv.debt = 0 → s.adv.acc + 1 ≠ s.profile.quantum →
    ∃ t, exec (.advPPulse true) s = .next t
      ∧ { t.adv with stroke := s.adv.stroke } = { s.adv with acc := s.adv.acc + 1 }
      ∧ onlyChanges [.adv, .thu, .gru, .bld, .rgu, .mdu, .hlc] s t)
  ∧ ∀ s : State, s.resetHeld = false → s.adv.debt = 0 → s.adv.acc + 1 ≠ s.profile.quantum → s.bld.inbox = [] →
    (s.bld.flight = .stroke ∧ s.bld.step.stroke ≤ min 30000 (s.adv.stroke + 1) →
      s.bld.plan.busy = false ∧ s.bld.slot.val < 127) →
    ∃ t, exec (.advPPulse true) s = .next t
      ∧ t.adv = { s.adv with stroke := min 30000 (s.adv.stroke + 1), acc := s.adv.acc + 1 }
      ∧ t.mdu = { s.mdu with standstill := if s.mdu.standstill = .stopped then .stopped
                                           else .running (s.now + s.profile.tStill * 1000) }
      ∧ (if s.bld.flight = .stroke ∧ s.bld.step.stroke ≤ min 30000 (s.adv.stroke + 1) then
          t.bld.slot.val = s.bld.slot.val + 1
          ∧ { t.bld with slot := s.bld.slot } = { s.bld with flight := .none, stepTimer := .stopped, loopCount := 0 }
        else t.bld = s.bld)
      ∧ onlyChanges [.adv, .mdu, .bld, .hlc] s t ∧ linkQuiet s t

/-- A credited pulse that brings P to Q takes an advance step: ADV has the step's remainders and serial and P at 0, and
a profile pending in BORING becomes active. For a stroke below ring_length, a transit queue with room, no pending
profile and no AWAIT_STROKE in flight it is said what the others take: the open ring has the step's totals and the new
stroke; FCU has the step's transit entry; each line's accrued figure has its demand if the figures are of this ring.
With no pending profile and no AWAIT_STROKE in flight the stroke checks are said whole: a stroke at ring_length sets
stroke_done, or closes the ring that is already built, with the step's totals in its log entry; STROKE_LIMIT is posted
at ring_length + stroke_margin while the build is not done. A pending profile activated at the boundary is entered in
the record's list with the serial of this step, said for a ring that does not close and for no arc that could move the
plan (R4, R5, R9, R10, R11, R12, R15, R74, R88, R138, R141 to R143, R156, R158).
The clock is the model's own: log 3. -/
def Obligations.AdvanceStepTaken : Prop :=
  (∀ s : State, s.resetHeld = false → s.adv.debt = 0 → s.adv.acc + 1 = s.profile.quantum →
    (s.pfs.next ≠ none → s.mdu.mode = .boring) →
    ∃ t, exec (.advPPulse true) s = .next t
      ∧ { t.adv with stroke := s.adv.stroke } = advAfterStep s.profile.quantum s
      ∧ (∀ p, s.pfs.next = some p → t.pfs.active = p ∧ t.pfs.next = none)
      ∧ onlyChanges [.adv, .thu, .chu, .fcu, .gru, .bld, .rgu, .pfs, .mdu, .hlc] s t)
  ∧ (∀ s : State, s.resetHeld = false → s.adv.debt = 0 → s.adv.acc + 1 = s.profile.quantum → s.pfs.next = none →
    s.bld.flight ≠ .stroke → s.fcu.transit.length < 64 →
    (∀ g, s.geometry = some g → min 30000 (s.adv.stroke + 1) < g.ringLength) →
    ∃ t r, exec (.advPPulse true) s = .next t ∧ r = stepRecord s.profile.quantum s
      ∧ t.adv = { advAfterStep s.profile.quantum s with stroke := min 30000 (s.adv.stroke + 1) }
      ∧ r.serial = (s.adv.serial + 1) % 65536 ∧ r.serial = t.adv.serial ∧ r.ring = s.rgu.current.number
      ∧ r.advance = s.profile.quantum ∧ r.time = s.now
      ∧ t.rgu.current = { s.rgu.current with volume := min 999999999 (s.rgu.current.volume + r.volume),
                                             mass := min 999999999 (s.rgu.current.mass + r.mass),
                                             stroke := min 30000 (s.adv.stroke + 1) }
      ∧ t.fcu = { s.fcu with transit := s.fcu.transit ++ [
          { serial := r.serial, ring := r.ring, mass := r.mass, time := s.now,
            age := match s.geometry with
              | some g => .running (s.now + g.beltTransit * 1000)
              | none => .stopped }] }
      ∧ (∀ i : Fin 6, (t.line i).accrued
          = if r.ring = s.gru.figuresRing then min 999999999 ((s.line i).accrued + r.grout[i])
            else (s.line i).accrued)
      ∧ t.mdu.mode = s.mdu.mode ∧ t.mdu.halts = s.mdu.halts
      ∧ onlyChanges [.adv, .rgu, .gru, .fcu, .mdu, .thu, .hlc] s t ∧ linkNotices s t)
  ∧ (∀ (s : State) (g : Geometry) (n : Nat), s.resetHeld = false → s.adv.debt = 0 →
    s.adv.acc + 1 = s.profile.quantum → s.pfs.next = none → s.bld.flight ≠ .stroke → s.geometry = some g →
    n = min 30000 (s.adv.stroke + 1) →
    ∃ t r, exec (.advPPulse true) s = .next t ∧ r = stepRecord s.profile.quantum s
      ∧ if g.ringLength ≤ n ∧ s.rgu.current.buildDone = true then
          t.rgu.current.number = nextRing s.rgu.current.number ∧ t.rgu.current.stroke = n - g.ringLength
          ∧ t.rgu.current.segments = [] ∧ t.rgu.current.volume = 0 ∧ t.rgu.current.mass = 0
          ∧ t.rgu.current.buildDone = false ∧ t.rgu.current.strokeDone = false
          ∧ t.rgu.current.profileAtOpen = s.pfs.active ∧ t.adv.stroke = n - g.ringLength
          ∧ t.gru.figuresRing = nextRing s.rgu.current.number
          ∧ t.mdu.holds[HoldReason.strokeLimit.index] = false
          ∧ ∃ e, t.rgu.log.getLast? = some e ∧ e.strokeAtClose = n
            ∧ e.record.number = s.rgu.current.number ∧ e.record.stroke = n ∧ e.record.strokeDone = true
            ∧ e.record.segments = s.rgu.current.segments
            ∧ e.record.volume = min 999999999 (s.rgu.current.volume + r.volume)
            ∧ e.record.mass = min 999999999 (s.rgu.current.mass + r.mass)
        else
          t.rgu.current.number = s.rgu.current.number ∧ t.rgu.current.stroke = n ∧ t.adv.stroke = n
          ∧ t.rgu.current.strokeDone = (s.rgu.current.strokeDone || decide (g.ringLength ≤ n))
          ∧ t.mdu.holds[HoldReason.strokeLimit.index] = (s.mdu.holds[HoldReason.strokeLimit.index]
              || decide (g.ringLength + g.strokeMargin ≤ n) && !s.rgu.current.buildDone))
  ∧ ∀ (s : State) (p : ProfileName), s.resetHeld = false → s.adv.debt = 0 →
    s.adv.acc + 1 = s.profile.quantum → s.pfs.next = some p → s.mdu.mode = .boring →
    s.thu.arcs = [] → s.thu.waiting = none → s.bld.inbox = [] → s.bld.flight ≠ .stroke →
    (∀ g, s.geometry = some g → min 30000 (s.adv.stroke + 1) < g.ringLength ∨ s.rgu.current.buildDone = false) →
    ∃ t, exec (.advPPulse true) s = .next t
      ∧ t.adv = { advAfterStep s.profile.quantum s with stroke := min 30000 (s.adv.stroke + 1) }
      ∧ t.rgu.current.number = s.rgu.current.number
      ∧ changeEntered p ((s.adv.serial + 1) % 65536) s.rgu.current t.rgu.current

/-- The mass and grout of a step with the geometry record set: what a step hands on and what it carries add up
exactly, with the remainder below the divisor; a line of weight 0 gets nothing and keeps its remainder (R7, R8). -/
def Obligations.StepMassAndGrout : Prop :=
  ∀ (d : Nat) (s : State) (g : Geometry), s.geometry = some g →
    1000000 * (stepRecord d s).mass + (advAfterStep d s).remMass
        = (stepRecord d s).volume * s.profile.bankDensity * (1000 + s.profile.conditioning) + s.adv.remMass
    ∧ (advAfterStep d s).remMass ≤ 999999
    ∧ ∀ i : Fin 6, ((s.line i).effective = 0 →
          (stepRecord d s).grout[i] = 0 ∧ (advAfterStep d s).remGrout[i] = s.adv.remGrout[i])
        ∧ (0 < (s.line i).effective →
          2560000 * (stepRecord d s).grout[i] + (advAfterStep d s).remGrout[i]
              = g.gapArea * d * (s.line i).effective * s.profile.fillFactor + s.adv.remGrout[i]
          ∧ (advAfterStep d s).remGrout[i] ≤ 2559999)

/-- With settings in range the widest intermediate values of a step stay below 2^44, and the step figures within
their bounds (R6, R14). -/
def Obligations.StepFiguresStayInRange : Prop :=
  ∀ (d : Nat) (s : State) (g : Geometry), s.geometry = some g → geometryFailure g = none →
    profileFailure s.profile = none → d ≤ 200 → s.AdvanceLaw → s.GroutLaw →
    100 * (stepRecord d s).volume + (advAfterStep d s).remVolume = g.faceArea * d + s.adv.remVolume
    ∧ (advAfterStep d s).remVolume ≤ 99 ∧ (stepRecord d s).volume ≤ 2400000
    ∧ massNumerator s.profile (stepRecord d s).volume s.adv.remMass < 2 ^ 44
    ∧ (stepRecord d s).mass ≤ 10080000
    ∧ ∀ i : Fin 6, groutNumerator g s.profile d (s.line i).effective s.adv.remGrout[i] < 2 ^ 44
      ∧ (stepRecord d s).grout[i] ≤ 600000

/-! ## Thrust -/

/-- STEER without a geometry record is refused. Otherwise the four pressures are clamped to pair_max_pressure and
stored, the THRUSTING pairs are commanded by them while advance is permitted and stay at hold_pressure otherwise, the
group-short timer follows its condition, and GROUP_SHORT is withdrawn when the condition has ended; nothing else
changes (R23, R24, R25, R26).
The clock is the model's own: log 3. -/
def Obligations.SteerStoresSetpoints : Prop :=
  ∀ (tag : Byte) (c r i l : Nat) (s : State), takes (.steer tag c r i l) s → s.mdu.Lawful →
    ∃ t, exec (.steer tag c r i l) s = .next t ∧
      match s.geometry with
      | none => refused 0x0C tag (.refusedState 0 0) s t
      | some g =>
        answered 0x0C tag
            (if c ≤ g.pairMaxPressure ∧ r ≤ g.pairMaxPressure ∧ i ≤ g.pairMaxPressure ∧ l ≤ g.pairMaxPressure
             then .accepted else .clamped)
            [u2 (min g.pairMaxPressure c), u2 (min g.pairMaxPressure r), u2 (min g.pairMaxPressure i),
             u2 (min g.pairMaxPressure l)] s t
        ∧ t.thu.setpoints = #v[min g.pairMaxPressure c, min g.pairMaxPressure r, min g.pairMaxPressure i,
            min g.pairMaxPressure l]
        ∧ (∀ j : Fin 16, { t.pair j with commanded := (s.pair j).commanded } = s.pair j)
        ∧ (∀ j : Fin 16, (t.pair j).state = .thrusting → (t.pair j).commanded =
            if t.mdu.permitted then
              min g.pairMaxPressure ((t.thu.setpoints[groupOf j] * 4 + (groupCount t.thu (groupOf j) - 1))
                / groupCount t.thu (groupOf j))
            else t.profile.holdPressure)
        ∧ t.thu.arcs = s.thu.arcs ∧ t.thu.waiting = s.thu.waiting
        ∧ t.thu.groupTimer = (match s.thu.groupTimer, anyGroupShort t with
            | .stopped, true => .running (s.now + s.profile.tGroup * 1000)
            | .running e, true => .running e
            | .expired, true => .expired
            | _, false => .stopped)
        ∧ t.mdu = (if s.thu.groupTimer = .expired ∧ anyGroupShort t = false then s.mdu.withHold .groupShort false
            else s.mdu)
        ∧ onlyChanges [.thu, .mdu, .hlc] s t

/-- The group-short timer and the grout shortfall timer run out: GROUP_SHORT and GROUT_SHORT are posted, the timer is
marked expired, or the shortfall state is SHORT and the open ring's flag is set; of the pairs only the commanded
pressures may change (R26, R105, R164).
The clock is the model's own: log 3. -/
def Obligations.HoldTimersPostTheirReasons : Prop :=
  (∀ (s : State) (e : Nat), s.thu.groupTimer = .running e → s.mdu.Lawful →
    ∃ t, exec .groupShortTimerExpiry s = .next t ∧ t.thu.groupTimer = .expired ∧ holdFollows .groupShort true s t
      ∧ commandsOnly s.thu { t.thu with groupTimer := s.thu.groupTimer } ∧ t.now = max s.now e
      ∧ onlyChanges [.thu, .mdu, .hlc, .clock] s t)
  ∧ ∀ (s : State) (e : Nat), s.gru.shortTimer = .running e → s.mdu.Lawful →
    ∃ t, exec .gshortTimerExpiry s = .next t ∧ t.gru = { s.gru with shortfall := .short, shortTimer := .stopped }
      ∧ t.rgu = { s.rgu with current :=
          { s.rgu.current with flags := { s.rgu.current.flags with groutShort := true } } }
      ∧ holdFollows .groutShort true s t ∧ commandsOnly s.thu t.thu ∧ t.now = max s.now e
      ∧ onlyChanges [.gru, .rgu, .thu, .mdu, .hlc, .clock] s t

/-- An arc's release or reseat timer runs out: THU tells the requester and the arc stays in flight in its phase, with
the release timer stopped or the reseat timer marked expired. The plan faults when its step waits for that arc;
otherwise nothing else changes. A withdrawal request is refused busy while another waits, granted at once when it
passes the four tests of admission, and kept waiting otherwise; a request that waits is granted by the same tests, and
BLD is then told (R28, R29, R31, R32, R35, R120 to R122, R132).
The model's own choices: the loop count (log 18) and the clock (log 3). -/
def Obligations.ArcTimersTellTheRequester : Prop :=
  (∀ (s : State) (id e : Nat) (a : Arc), s.arc id = some a → a.release = .running e → s.bld.inbox = [] →
    ∃ t, exec (.releaseTimerExpiry id) s = .next t ∧ t.now = max s.now e
      ∧ if a.byBld = true ∧ s.bld.flight = .release id then
          planFaulted .releaseTimeout s t ∧ onlyChanges [.thu, .bld, .mdu, .hlc, .clock] s t ∧ linkNotices s t
        else
          t.thu = { s.thu with
            arcs := s.thu.arcs.map fun b => if b.id = id then { b with release := .stopped } else b }
          ∧ t.bld = (if a.byBld then { s.bld with loopCount := 0 } else s.bld)
          ∧ onlyChanges [.thu, .bld, .hlc, .clock] s t ∧ linkQuiet s t)
  ∧ (∀ (s : State) (id e : Nat) (a : Arc), s.arc id = some a → a.reseat = .running e → s.bld.inbox = [] →
    ∃ t, exec (.reseatTimerExpiry id) s = .next t ∧ t.now = max s.now e
      ∧ if a.byBld = true ∧ (s.bld.flight = .reseat id ∨ s.bld.background = some id) then
          planFaulted .reseatTimeout s t ∧ onlyChanges [.thu, .bld, .mdu, .hlc, .clock] s t ∧ linkNotices s t
        else
          t.thu = { s.thu with
            arcs := s.thu.arcs.map fun b => if b.id = id then { b with reseat := .expired } else b }
          ∧ t.bld = (if a.byBld then { s.bld with loopCount := 0 } else s.bld)
          ∧ onlyChanges [.thu, .bld, .hlc, .clock] s t ∧ linkQuiet s t)
  ∧ (∀ (r : ArcRequest) (s : State), ∃ u, u = requestArc r s ∧ match arcAnswer r s with
    | .busy => s.thu.waiting ≠ none ∧ u = s
    | .waits => s.thu.waiting = none ∧ ¬ s.admits r ∧ u.thu = { s.thu with waiting := some r }
        ∧ onlyChanges [.thu] s u
    | .granted id isWithdrawn => s.thu.waiting = none ∧ s.admits r ∧ arcGranted r id s u
        ∧ isWithdrawn = !s.releases r ∧ onlyChanges [.thu, .mdu, .hlc] s u)
  ∧ ∀ (r : ArcRequest) (s : State), s.thu.waiting = some r → ∃ u, u = admitWaiting s
    ∧ (¬ s.admits r → u = s)
    ∧ (s.admits r → ∃ id, arcGranted r id s u ∧ u.thu.groupTimer = s.thu.groupTimer
        ∧ u.bld = { s.bld with
            inbox := s.bld.inbox ++ .granted id r.start r.width :: (if s.releases r then [] else [.withdrawn id]) }
        ∧ onlyChanges [.thu, .bld] s u)

/-- PAIR_REINSTATE is refused for an index above 15, and unless the pair is FAULTED without an arc tag, its station
ONLINE and its last status OK. Otherwise the pair goes to RESEATING at hold_pressure; with no arc in flight and none
waiting nothing else of THU changes but commanded pressures and the group-short timer. A THRUST report fills the
last-reported fields of its station's four pairs and takes each by the table of R22; the other pairs keep their states.
With no request waiting, an arc whose last pair has so arrived is withdrawn, or leaves the list and its tags with it,
and THRUST_MIN follows its condition (R22, R25, R27, R31, R34, R36 to R38).
When THU evaluates anew is read by inference: log 23. -/
def Obligations.PairReinstateReseats : Prop :=
  (∀ (tag : Byte) (n : Nat) (s : State), takes (.pairReinstate tag n) s →
    ∃ t, exec (.pairReinstate tag n) s = .next t ∧
      if h : n < 16 then
        if (s.pair ⟨n, h⟩).state.cause ≠ none ∧ (s.pair ⟨n, h⟩).tag = none ∧ s.online (3 + n / 4) = true
            ∧ (s.pair ⟨n, h⟩).lastStatus = some .ok then
          answered 0x16 tag .accepted [] s t
          ∧ (t.pair ⟨n, h⟩).state = .reseating ∧ (t.pair ⟨n, h⟩).commanded = s.profile.holdPressure
          ∧ onlyChanges [.adv, .thu, .gru, .bld, .rgu, .mdu, .hlc] s t
          ∧ (s.thu.arcs = [] → s.thu.waiting = none → s.bld.inbox = [] →
              (∀ i : Fin 16, i.val ≠ n → { t.pair i with commanded := (s.pair i).commanded } = s.pair i)
              ∧ { t.thu with pairs := s.thu.pairs, groupTimer := s.thu.groupTimer } = s.thu
              ∧ onlyChanges [.thu, .mdu, .hlc] s t)
        else refused 0x16 tag (.refusedState 0 0) s t
      else refused 0x16 tag (.refusedRange 1 0) s t)
  ∧ ∀ (k : Fin 4) (entries : Vector (Nat × Bool × PairStatus) 4) (s : State), ∃ u, u = thrustReport k entries s
    ∧ (u.bld.inbox = [] → takeReport (.thrust k entries) s = u)
    ∧ (∀ j : Fin 4, (u.pair (pairAt k j)).lastPressure = some entries[j].1
        ∧ (u.pair (pairAt k j)).lastClear = some entries[j].2.1
        ∧ (u.pair (pairAt k j)).lastStatus = some entries[j].2.2)
    ∧ onlyChanges [.thu, .bld, .mdu, .hlc] s u
    ∧ (s.thu.waiting = none →
        (∀ j : Fin 4, (u.pair (pairAt k j)).state =
          if entries[j].2.2 = .fault then .faulted .stationFault
          else match (s.pair (pairAt k j)).state with
            | .thrusting => .thrusting
            | .releasing => if entries[j].2.1 = true then .withdrawn else .releasing
            | .withdrawn => .withdrawn
            | .reseating => if s.profile.holdPressure ≤ entries[j].1 then .thrusting else .reseating
            | .faulted c =>
              if s.mdu.mode = .standby ∧ (s.pair (pairAt k j)).tag = none
                  ∧ s.profile.holdPressure ≤ entries[j].1 ∧ entries[j].2.1 = false then .thrusting
              else .faulted c)
        ∧ (∀ i : Fin 16, stationOf i ≠ k → { u.pair i with tag := (s.pair i).tag, commanded := (s.pair i).commanded }
            = s.pair i)
        ∧ u.mdu.holds[HoldReason.thrustMin.index]
            = (if pairStates u.thu = pairStates s.thu then s.mdu.holds[HoldReason.thrustMin.index] else thrustMin u)
        ∧ (pairStates u.thu ≠ pairStates s.thu → ∀ a ∈ s.thu.arcs,
            (a.phase = .withdrawing → (∀ i, a.selects i = true → (u.pair i).state.cause ≠ none
                ∨ (u.pair i).state = .withdrawn) →
              ∀ b ∈ u.thu.arcs, b.id = a.id → b.phase = .withdrawn ∧ b.release = .stopped)
            ∧ (a.phase = .reseating → (∀ i, a.selects i = true → (u.pair i).state.cause ≠ none
                ∨ (u.pair i).state = .thrusting) →
              (∀ b ∈ u.thu.arcs, b.id ≠ a.id) ∧ ∀ i : Fin 16, (u.pair i).tag ≠ some a.id)))

/-! ## Cutterhead -/

/-- A change of the applied target or of the host target's direction acts on the drive as the table of R47 says: the
drive state, the commanded direction, and whether a ramp starts from a new origin; without a change nothing acts on
it. A STALLED drive has setpoint 0 (R46, R47). That a REVERSING drive whose applied target becomes 0 keeps the origin
and start of its ramp is the model's choice, log 22; the clock in which a ramp starts is that of log 3. -/
def Obligations.TargetChangeActsOnDrive : Prop :=
  ∀ (v : Nat) (dir : Direction) (s : State), ∃ u, u = setHostTarget v dir s ∧
    u.chu.hostSpeed = v ∧ u.chu.hostDir = dir
    ∧ u.chu.applied = (if s.chu.zone then min v s.profile.zoneSpeedCap else v)
    ∧ (if u.chu.applied = s.chu.applied ∧ dir = s.chu.hostDir then
        u.chu = { s.chu with hostSpeed := v } ∧ u.mdu = s.mdu
      else match s.chu.drive with
        | .stopped =>
          if u.chu.applied = 0 then u.chu.drive = .stopped ∧ u.chu.direction = s.chu.direction
          else u.chu.drive = .ramping ∧ u.chu.direction = dir ∧ u.chu.rampOrigin = rampFrom u.chu
            ∧ u.chu.rampStart = s.now
        | .reversing =>
          u.chu.direction = s.chu.direction
          ∧ if u.chu.applied = 0 then
              u.chu.drive = .ramping ∧ u.chu.rampOrigin = s.chu.rampOrigin ∧ u.chu.rampStart = s.chu.rampStart
            else if dir = s.chu.direction then
              u.chu.drive = .ramping ∧ u.chu.rampOrigin = rampFrom u.chu ∧ u.chu.rampStart = s.now
            else u.chu.drive = .reversing ∧ u.chu.rampOrigin = s.chu.rampOrigin ∧ u.chu.rampStart = s.chu.rampStart
        | .stalled => u.chu.drive = .stalled ∧ setpoint u = 0
        | _ =>
          u.chu.drive = (if u.chu.applied = 0 ∨ dir = s.chu.direction then .ramping else .reversing)
          ∧ u.chu.direction = s.chu.direction ∧ u.chu.rampOrigin = rampFrom u.chu ∧ u.chu.rampStart = s.now)
    ∧ onlyChanges [.chu, .mdu] s u

/-- CUTTERHEAD: a speed above 600 and a direction that is none are refused, and so is a speed above 0 outside BORING
and STANDSTILL. Otherwise the host target is stored as given, the applied target follows, the drive takes the change,
and in STANDSTILL a speed above 0 returns the machine to BORING. The reply shows the target and the drive as they
then stand (R43, R44, R47, R174). That the range is checked before the mode is log 24. -/
def Obligations.CutterheadSetsTarget : Prop :=
  ∀ (tag : Byte) (v d : Nat) (s : State), takes (.cutterhead tag v d) s →
    ∃ t, exec (.cutterhead tag v d) s = .next t ∧
      if 600 < v then refused 0x0B tag (.refusedRange 1 0) s t
      else match directionOfCode d with
        | none => refused 0x0B tag (.refusedRange 2 0) s t
        | some dir =>
          if 0 < v ∧ s.mdu.mode ≠ .boring ∧ s.mdu.mode ≠ .standstill then refused 0x0B tag (.refusedState 0 0) s t
          else
            answered 0x0B tag .accepted
                [u2 v, u1 dir.code, u2 t.chu.applied, fl s.chu.zone, u1 t.chu.drive.code] s t
            ∧ t.chu.hostSpeed = v ∧ t.chu.hostDir = dir ∧ t.chu.zone = s.chu.zone
            ∧ t.chu.applied = (if s.chu.zone then min v s.profile.zoneSpeedCap else v)
            ∧ t.chu.drive = (setHostTarget v dir s).chu.drive
            ∧ t.chu.direction = (setHostTarget v dir s).chu.direction
            ∧ t.chu.last = s.chu.last ∧ t.chu.loadIndex = s.chu.loadIndex ∧ t.chu.ceiling = s.chu.ceiling
            ∧ t.mdu.holds = s.mdu.holds ∧ t.mdu.halts = s.mdu.halts
            ∧ if 0 < v ∧ s.mdu.mode = .standstill then
                t.mdu.mode = .boring ∧ t.mdu.previous = .standstill ∧ onlyChanges [.thu, .chu, .fcu, .mdu, .hlc] s t
              else
                t.mdu.mode = s.mdu.mode ∧ t.mdu.permitted = s.mdu.permitted ∧ onlyChanges [.chu, .mdu, .hlc] s t
                ∧ t.hlc.notices = s.hlc.notices

/-- The stall, under-support and over-excavation timers run out: the drive is STALLED with setpoint 0, the
under-support state is POSTED, or the excavation state is POSTED with the flag set on the weighing ring's record; and
outside STANDBY the machine halts with STALL, FACE_UNDER or OVER_EXCAVATION (R56, R70, R78, R167).
The clock is the model's own: log 3. -/
def Obligations.HaltTimersHaltTheMachine : Prop :=
  (∀ (s : State) (e : Nat), s.chu.stallTimer = .running e → (s.mdu.mode = .boring → s.pfs.next = none) →
    ∃ t, exec .stallTimerExpiry s = .next t ∧ t.now = max s.now e
      ∧ t.chu.drive = .stalled ∧ t.chu.stallTimer = .stopped ∧ setpoint t = 0 ∧ t.mdu.driveStopped = false
      ∧ (if s.mdu.mode = .standby then t.mdu.mode = .standby ∧ t.mdu.halts = s.mdu.halts
         else (s.mdu.Lawful → Mdu.haltRaised .stall s.mdu t.mdu))
      ∧ onlyChanges [.thu, .chu, .fcu, .gru, .bld, .mdu, .hlc, .clock] s t ∧ linkNotices s t)
  ∧ (∀ (s : State) (e : Nat), s.fcu.underTimer = .running e → (s.mdu.mode = .boring → s.pfs.next = none) →
    ∃ t, exec .underTimerExpiry s = .next t ∧ t.now = max s.now e
      ∧ t.fcu.under = .posted ∧ t.fcu.underTimer = .stopped
      ∧ (if s.mdu.mode = .standby then t.mdu = s.mdu
         else (s.mdu.Lawful → Mdu.haltRaised .faceUnder s.mdu t.mdu))
      ∧ onlyChanges [.thu, .chu, .fcu, .gru, .bld, .mdu, .hlc, .clock] s t ∧ linkNotices s t)
  ∧ ∀ (s : State) (e : Nat), s.fcu.excavTimer = .running e → (s.mdu.mode = .boring → s.pfs.next = none) →
    ∃ t, exec .excavTimerExpiry s = .next t ∧ t.now = max s.now e
      ∧ t.fcu.excav = .posted ∧ t.fcu.excavTimer = .stopped
      ∧ t.rgu = (match s.fcu.weighing with
          | some ring => (flagRing ring (fun f => { f with overExcavation := true }) s).rgu
          | none => s.rgu)
      ∧ (s.fcu.weighing = some s.rgu.current.number → t.rgu.current.flags.overExcavation = true)
      ∧ (if s.mdu.mode = .standby then t.mdu = s.mdu
         else (s.mdu.Lawful → Mdu.haltRaised .overExcavation s.mdu t.mdu))
      ∧ onlyChanges [.thu, .chu, .fcu, .gru, .bld, .rgu, .mdu, .hlc, .clock] s t ∧ linkNotices s t

/-- The load index moves toward L² and never past it, by the truncated part of the distance, and stays within 0 to
40,000 (R50); a ramp's setpoint lies between its origin and its target at every moment and reaches the target (R46).
A DRIVE report updates L and H, then the zone with its ceiling, applied target and ring flag, and the trip condition of
a LOAD_TRIP in the set. Where the zone stays, it completes a ramp or turns a reversal at zero, and the stall timer
follows its condition. An H left at or above H_trip posts LOAD_TRIP, which halts the machine outside STANDBY (R42, R44,
R48, R49, R51 to R53, R55, R167).
The clock is the model's own: log 3. -/
def Obligations.LoadIndexAndRampStayBetween : Prop :=
  (∀ h torque rated k : Nat, h ≤ 40000 → 16 ≤ k → ∃ l, l = relativeTorque torque rated ∧ l ≤ 200 ∧
    (((nextLoadIndex h l k : Nat) : Int) - h = (((l * l : Nat) : Int) - h).tdiv k)
    ∧ (h ≤ l * l → h ≤ nextLoadIndex h l k ∧ nextLoadIndex h l k ≤ l * l)
    ∧ (l * l ≤ h → l * l ≤ nextLoadIndex h l k ∧ nextLoadIndex h l k ≤ h)
    ∧ nextLoadIndex h l k ≤ 40000)
  ∧ (∀ origin target rate elapsed : Nat,
    (origin ≤ target → origin ≤ rampSpeed origin target rate elapsed ∧ rampSpeed origin target rate elapsed ≤ target)
    ∧ (target ≤ origin → target ≤ rampSpeed origin target rate elapsed
        ∧ rampSpeed origin target rate elapsed ≤ origin)
    ∧ (((target : Int) - origin).natAbs * 1000 ≤ rate * elapsed → rampSpeed origin target rate elapsed = target))
  ∧ (∀ (r : DriveReport) (s : State), ∃ u, u = driveReport r s ∧ u.chu.last = some r
    ∧ onlyChanges [.chu, .rgu, .mdu, .hlc] s u
    ∧ (match s.geometry with
      | none => u.chu.loadRatio = none ∧ u.chu.loadIndex = s.chu.loadIndex ∧ u.chu.zone = s.chu.zone
          ∧ u.rgu = s.rgu ∧ u.mdu.halts = s.mdu.halts
      | some g => ∃ l, l = min 200 (r.torque * 100 / g.ratedTorque)
          ∧ u.chu.loadRatio = some l ∧ u.chu.loadIndex = nextLoadIndex s.chu.loadIndex l s.profile.k
          ∧ u.chu.zone = (if s.chu.zone then decide (s.profile.hLow < u.chu.loadIndex)
              else decide (s.profile.hHigh ≤ u.chu.loadIndex))
          ∧ (u.chu.zone ≠ s.chu.zone → u.chu.applied = appliedTarget u ∧ u.chu.ceiling = torqueCeiling u)
          ∧ u.rgu = { s.rgu with current := { s.rgu.current with flags := { s.rgu.current.flags with
              envelopeEntered := s.rgu.current.flags.envelopeEntered || (u.chu.zone && !s.chu.zone) } } }
          ∧ u.chu.trip = (if haltMember s.mdu .loadTrip then decide (s.profile.hLow < u.chu.loadIndex)
              else s.chu.trip)
          ∧ u.mdu.halts[HaltCause.loadTrip.index]
              = (if u.chu.trip = s.chu.trip then s.mdu.halts[HaltCause.loadTrip.index] else some (!u.chu.trip))
          ∧ ∀ c : HaltCause, c ≠ .loadTrip → u.mdu.halts[c.index] = s.mdu.halts[c.index])
    ∧ (u.chu.zone = s.chu.zone →
        u.chu.hostSpeed = s.chu.hostSpeed ∧ u.chu.hostDir = s.chu.hostDir ∧ u.chu.applied = s.chu.applied
        ∧ u.chu.ceiling = s.chu.ceiling
        ∧ u.chu.drive = (match s.chu.drive with
          | .ramping =>
            if s.chu.applied = 0 then if r.speed = 0 then .stopped else .ramping
            else if r.direction = s.chu.direction
                ∧ ((r.speed : Int) - s.chu.applied).natAbs * 100 ≤ s.chu.applied * 2 then .turning
            else .ramping
          | .reversing => if r.speed = 0 ∧ 0 < s.chu.applied then .ramping else .reversing
          | d => d)
        ∧ (if s.chu.drive = .reversing ∧ r.speed = 0 ∧ 0 < s.chu.applied then
            u.chu.direction = s.chu.hostDir ∧ u.chu.rampOrigin = 0 ∧ u.chu.rampStart = s.now
          else u.chu.direction = s.chu.direction ∧ u.chu.rampOrigin = s.chu.rampOrigin
            ∧ u.chu.rampStart = s.chu.rampStart)
        ∧ u.chu.stallTimer =
            if s.chu.drive = .stalled then s.chu.stallTimer
            else if 0 < s.chu.applied ∧ s.chu.ceiling * 95 ≤ r.torque * 100 ∧ r.speed * 100 < s.chu.applied * 10 then
              if s.chu.stallTimer = .stopped then .running (s.now + s.profile.tStall * 1000) else s.chu.stallTimer
            else .stopped))
  ∧ ∀ (r : DriveReport) (s : State), (s.mdu.mode = .boring → s.pfs.next = none) →
    ∃ u t, u = driveReport r s ∧ t = takeReport (.drive r) s
      ∧ if s.geometry ≠ none ∧ s.profile.hTrip ≤ u.chu.loadIndex ∧ s.mdu.mode ≠ .standby then
          (s.mdu.Lawful → Mdu.haltRaised .loadTrip u.mdu t.mdu) ∧ t.chu.loadIndex = u.chu.loadIndex
        else t = u

/-! ## Face -/

/-- A pulse on BELT-P adds belt_mass_per_pulse to the measured mass, saturating, or 0 g while the geometry record is
UNSET; while the open ring is the weighing ring its record shows the new mass; nothing else changes (R73, R139). -/
def Obligations.BeltPulseAddsMass : Prop :=
  ∀ s : State, s.resetHeld = false → ∃ t m, exec .beltPPulse s = .next t
    ∧ m = min 999999999 (s.fcu.measured + match s.geometry with
        | some g => g.beltMassPerPulse
        | none => 0)
    ∧ t.fcu = { s.fcu with measured := m }
    ∧ t.rgu = (if s.fcu.weighing = some s.rgu.current.number then
        { s.rgu with current := { s.rgu.current with measured := some m } } else s.rgu)
    ∧ onlyChanges [.fcu, .rgu, .hlc] s t ∧ linkQuiet s t

/-- The age timer of the head of the transit queue runs out, with no entry behind it that has aged: the head leaves
the queue and its mass is due of its ring. A release that changes the weighing ring settles the old one in its log
entry, if that holds no balance, and starts the account afresh. The excavation state is NORMAL exactly while the
over-excavation condition does not hold, and the under mark follows its condition (R75, R77, R78, R79, R146).
The clock is the model's own: log 3. -/
def Obligations.AgedEntryIsReleased : Prop :=
  ∀ (s : State) (e : TransitEntry) (es : List TransitEntry) (x : Nat), s.fcu.transit = e :: es →
    e.age = .running x → (∀ b ∈ es, entryAged (max s.now x) b = false) →
    ∃ t, exec .ageTimerExpiry s = .next t ∧ t.now = max s.now x
      ∧ t.fcu.transit = es ∧ t.fcu.weighing = some e.ring
      ∧ (if s.fcu.weighing = some e.ring ∨ s.fcu.weighing = none then
          t.fcu.due = min 999999999 (s.fcu.due + e.mass) ∧ t.fcu.measured = s.fcu.measured
        else t.fcu.due = min 999999999 e.mass ∧ t.fcu.measured = 0)
      ∧ (∀ ring le, s.fcu.weighing = some ring → ring ≠ e.ring → newestEntry ring s.rgu.log = some le →
          ∃ le', newestEntry ring t.rgu.log = some le' ∧ le'.settled = (match le.settled with
            | some b => some b
            | none => some { expected := s.fcu.due, measured := s.fcu.measured,
                             ratio := massRatio s.fcu.measured s.fcu.due }))
      ∧ (t.fcu.excav = .normal ↔ overExcavated t = false) ∧ t.fcu.underMark = underExcavated t
      ∧ t.fcu.earlyReleases = s.fcu.earlyReleases ∧ t.fcu.screw = s.fcu.screw ∧ t.fcu.regulator = s.fcu.regulator
      ∧ onlyChanges [.fcu, .rgu, .hlc, .clock] s t ∧ linkNotices s t

/-- CHAMBER_TRIM clamps the trim to -100 to +100, stores it and answers with it and the set point; the chamber-high
flag and CHAMBER_HIGH follow at once, against the last valid axis pressure. A BULKHEAD report tests the sensors, the
bin, the chamber pressure and the crown; then, in REGULATING with the axis valid and no under-support condition before
or in this report, it makes one regulation step, and the screw is brought within its cap. Under the condition, and in
the report that ends it, the screw is at 0. An axis that is blind from this report on posts FACE_BLIND, which halts the
machine outside STANDBY (R61 to R68, R70, R71, R139, R167). A crown reading that becomes invalid ends the condition
like any other report: log 26. While the BULKHEAD station is not ONLINE a trim change leaves the flag as it stands
(R72), or tests it against the last report (R64): a free value decides, log 28. The clock is the model's own: log 3. -/
def Obligations.ChamberTrimMovesSetPoint : Prop :=
  (∀ (tag : Byte) (x : Int) (s : State), takes (.chamberTrim tag x) s → s.mdu.Lawful →
    ∃ t, exec (.chamberTrim tag x) s = .next t
      ∧ answered 0x0D tag (if -100 ≤ x ∧ x ≤ 100 then .accepted else .clamped)
          [.num 1 (max (-100) (min 100 x)), .num 2 (s.profile.chamberTarget + max (-100) (min 100 x))] s t
      ∧ t.fcu = { s.fcu with trim := max (-100) (min 100 x), chamberHigh := t.fcu.chamberHigh }
      ∧ t.fcu.chamberHigh = (match s.fcu.last with
          | none => s.fcu.chamberHigh
          | some r =>
            if r.axis.valid = false ∨ (s.station 1).link ≠ .online ∧ Config.testsWhileLost = false then
              s.fcu.chamberHigh
            else if s.fcu.chamberHigh then
              decide (setPoint t + s.profile.chamberOver - s.profile.deadband < r.axis.pressure)
            else decide (setPoint t + s.profile.chamberOver ≤ r.axis.pressure))
      ∧ t.mdu = (if t.fcu.chamberHigh = s.fcu.chamberHigh then s.mdu
          else s.mdu.withHold .chamberHigh t.fcu.chamberHigh)
      ∧ commandsOnly s.thu t.thu ∧ onlyChanges [.fcu, .thu, .mdu, .hlc] s t)
  ∧ (∀ (r : BulkheadReport) (s : State), ∃ u, u = bulkheadReport r s
    ∧ u.fcu.last = some { r with bin := min 100 r.bin }
    ∧ u.fcu.faceBlind = (!s.online 2 || !r.axis.valid)
    ∧ u.fcu.regulator = (if u.fcu.faceBlind = s.fcu.faceBlind then s.fcu.regulator
        else if s.mdu.mode = .standby then .off else if u.fcu.faceBlind then .blind else .regulating)
    ∧ u.fcu.binHalt = (if s.fcu.binHalt then decide (s.profile.binResume < min 100 r.bin)
        else decide (s.profile.binHalt ≤ min 100 r.bin))
    ∧ u.fcu.chamberHigh = (if r.axis.valid = false then s.fcu.chamberHigh
        else if s.fcu.chamberHigh then
          decide (setPoint s + s.profile.chamberOver - s.profile.deadband < r.axis.pressure)
        else decide (setPoint s + s.profile.chamberOver ≤ r.axis.pressure))
    ∧ u.fcu.under = (if r.crown.valid = false then .suspended
        else if s.profile.crownMin ≤ r.crown.pressure then .clear
        else if s.fcu.under = .posted then .posted else .qualifying)
    ∧ (s.fcu.under.standing = false → u.fcu.under = .qualifying →
        u.fcu.underTimer = .running (s.now + s.profile.tUnder * 1000))
    ∧ (s.fcu.under = .qualifying → u.fcu.under ≠ .qualifying → u.fcu.underTimer = .stopped)
    ∧ (∀ h : HoldReason, u.mdu.holds[h.index] = match h with
        | .binFull => if u.fcu.binHalt = s.fcu.binHalt then s.mdu.holds[h.index] else u.fcu.binHalt
        | .chamberHigh => if u.fcu.chamberHigh = s.fcu.chamberHigh then s.mdu.holds[h.index] else u.fcu.chamberHigh
        | _ => s.mdu.holds[h.index])
    ∧ (∀ c : HaltCause, u.mdu.halts[c.index] = match c with
        | .faceUnder =>
          if s.mdu.halts[c.index] = none ∨ u.fcu.under = s.fcu.under ∨ s.fcu.under = .suspended ∧ u.fcu.under = .clear
          then s.mdu.halts[c.index] else some (!u.fcu.under.standing)
        | .faceBlind => if s.fcu.faceBlind = true ∧ u.fcu.faceBlind = false then none else s.mdu.halts[c.index]
        | _ => s.mdu.halts[c.index])
    ∧ u.mdu.mode = s.mdu.mode
    ∧ u.rgu.current.axis = (if r.axis.valid = false then s.rgu.current.axis
        else some (match s.rgu.current.axis with
          | some a => { lowest := min a.lowest r.axis.pressure, highest := max a.highest r.axis.pressure }
          | none => { lowest := r.axis.pressure, highest := r.axis.pressure }))
    ∧ u.rgu.current.flags.crownSuspended = (s.rgu.current.flags.crownSuspended
        || (match s.fcu.last with
            | some p => p.crown.valid
            | none => true) && !r.crown.valid)
    ∧ (s.ScrewLaw → u.fcu.screw =
        if underSupport s = true ∨ s.fcu.under.standing = true ∨ underSupport u = true then 0
        else min (screwCap u)
          (if u.fcu.regulator = .regulating ∧ r.axis.valid = true
              ∧ s.profile.deadband < ((r.axis.pressure : Int) - setPoint s).natAbs then
            (max 0 ((s.fcu.screw : Int) + max (-(s.profile.stepMax : Int)) (min (s.profile.stepMax : Int)
              ((((r.axis.pressure : Int) - setPoint s) * s.profile.kp).tdiv 100)))).toNat
          else s.fcu.screw))
    ∧ { u.fcu with
        regulator := s.fcu.regulator, screw := s.fcu.screw, gateOpen := s.fcu.gateOpen, last := s.fcu.last,
        binHalt := s.fcu.binHalt, chamberHigh := s.fcu.chamberHigh, under := s.fcu.under,
        underTimer := s.fcu.underTimer, faceBlind := s.fcu.faceBlind } = s.fcu
    ∧ onlyChanges [.fcu, .thu, .rgu, .mdu, .hlc] s u)
  ∧ ∀ (r : BulkheadReport) (s : State), (s.mdu.mode = .boring → s.pfs.next = none) →
    ∃ u t, u = bulkheadReport r s ∧ t = takeReport (.bulkhead r) s
      ∧ if s.fcu.faceBlind = false ∧ u.fcu.faceBlind = true ∧ s.mdu.mode ≠ .standby then
          (s.mdu.Lawful → Mdu.haltRaised .faceBlind u.mdu t.mdu)
        else t = u

/-! ## Grout -/

/-- The timers of a grout line run out. T_idle: a line in service is BLOCKED and owes nothing. T_hold: a HOLDING line
that owes block_owed is BLOCKED, and otherwise its timer is marked expired and nothing else changes. T_flush: the
line takes the whole pool, is IDLE, or INJECTING when it then owes a dose in BORING or STANDSTILL, and the pool is 0.
A GROUT report is stored as the line's last, its new strokes go to the delivered figure and off the owed value, an
INJECTING line that owes nothing more is IDLE, a pressure at grout_p_max holds it, a HOLDING line whose pressure has
fallen is released, and in STANDBY a line ISOLATED(STATION) with its station ONLINE returns (R85, R86, R90 to R92, R95,
R97, R101, R102, R104). The volume of a stroke while the geometry record is UNSET is free: log 8.
The clock is the model's own: log 3. -/
def Obligations.GroutLineTimers : Prop :=
  (∀ (s : State) (i : Fin 6) (e : Nat), (s.line i).idleTimer = .running e →
    (s.line i).state.inService = true →
    ∃ t, exec (.idleTimerExpiry i) s = .next t ∧ t.now = max s.now e
      ∧ (t.line i).state = .blocked ∧ (t.line i).owed = 0 ∧ (t.line i).idleTimer = .stopped
      ∧ (t.line i).holdTimer = .stopped ∧ (t.line i).flushTimer = .stopped ∧ (t.line i).effective = 0
      ∧ (t.line i).delivered = (s.line i).delivered ∧ (t.line i).accrued = (s.line i).accrued
      ∧ onlyChanges [.gru, .thu, .mdu, .hlc, .clock] s t ∧ linkNotices s t)
  ∧ (∀ (s : State) (i : Fin 6) (e : Nat), (s.line i).holdTimer = .running e → (s.line i).state = .holding →
    ∃ t, exec (.holdTimerExpiry i) s = .next t ∧ t.now = max s.now e
      ∧ if (s.profile.blockOwed : Int) ≤ (s.line i).owed then
          (t.line i).state = .blocked ∧ (t.line i).owed = 0 ∧ (t.line i).holdTimer = .stopped
          ∧ (t.line i).effective = 0 ∧ onlyChanges [.gru, .thu, .mdu, .hlc, .clock] s t ∧ linkNotices s t
        else
          t.gru = { s.gru with lines := s.gru.lines.set i { s.line i with holdTimer := .expired } }
          ∧ onlyChanges [.gru, .hlc, .clock] s t ∧ linkQuiet s t)
  ∧ (∀ (s : State) (i : Fin 6) (e : Nat), (s.line i).flushTimer = .running e →
    ∃ t, exec (.flushTimerExpiry i) s = .next t ∧ t.now = max s.now e
      ∧ (t.line i).owed = satAddInt (s.line i).owed s.gru.pool ∧ t.gru.pool = 0
      ∧ (t.line i).flushTimer = .stopped
      ∧ (t.line i).state = (if (s.profile.doseStart : Int) ≤ (t.line i).owed ∧ dosingMode s.mdu.mode = true
          then .injecting else .idle)
      ∧ (∀ j : Fin 6, (t.line j).effective = effectiveWeight t.gru j)
      ∧ (∀ j : Fin 6, j ≠ i → { t.line j with effective := (s.line j).effective } = s.line j)
      ∧ onlyChanges [.gru, .thu, .mdu, .hlc, .clock] s t ∧ linkNotices s t)
  ∧ ∀ (i : Fin 6) (r : GroutReport) (s : State), ∃ u n v, u = takeReport (.grout i r) s
    ∧ n = (if (s.line i).state = .flushing then 0 else match (s.line i).lastCount with
        | none => 0
        | some c => (r.count + 65536 - c % 65536) % 65536)
    ∧ v = (if n = 0 then (s.line i).owed else satAddInt (s.line i).owed (-((n * strokeVolume s i : Nat) : Int)))
    ∧ (u.line i).lastPressure = some r.pressure ∧ (u.line i).lastCount = some r.count
    ∧ (u.line i).pumpRunning = some r.pump ∧ (u.line i).flushOpen = some r.flush
    ∧ (u.line i).delivered = (if n = 0 then (s.line i).delivered
        else min 999999999 ((s.line i).delivered + n * strokeVolume s i))
    ∧ (u.line i).accrued = (s.line i).accrued
    ∧ (if s.mdu.mode = .standby ∧ s.geometry ≠ none ∧ (s.line i).state = .isolated .station
          ∧ s.online (8 + i) = true then
        (u.line i).state = .idle ∧ (u.line i).owed = satAddInt v s.gru.pool ∧ u.gru.pool = 0
        ∧ ∀ j : Fin 6, (u.line j).effective = effectiveWeight u.gru j
      else
        (u.line i).owed = v ∧ u.gru.pool = s.gru.pool
        ∧ (∀ j : Fin 6, (u.line j).effective = (s.line j).effective)
        ∧ (u.line i).state = match (s.line i).state with
          | .injecting => if n ≠ 0 ∧ v ≤ 0 then .idle else if s.profile.groutPMax ≤ r.pressure then .holding
              else .injecting
          | .holding => if s.profile.groutPMax < r.pressure + s.profile.groutHyst then .holding
              else if (s.profile.doseStart : Int) ≤ v ∧ dosingMode s.mdu.mode = true then .injecting else .idle
          | st => st)
    ∧ (∀ j : Fin 6, j ≠ i → { u.line j with effective := (s.line j).effective } = s.line j)
    ∧ onlyChanges [.gru, .thu, .mdu, .hlc] s u

/-- GROUT_LINE: FLUSH, ISOLATE and REINSTATE are refused or accepted as R96, R98 and R100 say. A flushed line is
FLUSHING with its timer running, and owes nothing if it came from IDLE; an isolated one is ISOLATED(HOST) with its
timers stopped and owes nothing if it was in service; a reinstated one takes the pool and is IDLE or INJECTING.
The codes of the actions are those of log 13, the clock that of log 3; that the reply to REINSTATE carries the state
after the dosing test is log 20. -/
def Obligations.GroutLineRequests : Prop :=
  (∀ (tag : Byte) (n action : Nat) (s : State), action ≠ 1 → action ≠ 2 → takes (.groutLineFlush tag n action) s →
    ∃ t, exec (.groutLineFlush tag n action) s = .next t ∧
      if h : n < 6 then
        if action ≠ 0 then refused 0x15 tag (.refusedRange 2 0) s t
        else if (s.line ⟨n, h⟩).state = .flushing then refused 0x15 tag .refusedBusy s t
        else if ((s.line ⟨n, h⟩).state = .blocked ∨ (s.line ⟨n, h⟩).state = .idle) ∧ s.online (8 + n) = true then
          answered 0x15 tag .accepted [u1 LineState.flushing.code] s t
          ∧ (t.line ⟨n, h⟩).state = .flushing
          ∧ (t.line ⟨n, h⟩).flushTimer = .running (s.now + s.profile.tFlush * 1000)
          ∧ (t.line ⟨n, h⟩).owed = (if (s.line ⟨n, h⟩).state = .idle then 0 else (s.line ⟨n, h⟩).owed)
          ∧ onlyChanges [.gru, .thu, .mdu, .hlc] s t
        else refused 0x15 tag (.refusedState 0 0) s t
      else refused 0x15 tag (.refusedRange 1 0) s t)
  ∧ (∀ (tag : Byte) (n : Nat) (s : State), takes (.groutLineIsolate tag n) s →
    ∃ t, exec (.groutLineIsolate tag n) s = .next t ∧
      if h : n < 6 then
        if (s.line ⟨n, h⟩).state = .flushing then refused 0x15 tag .refusedBusy s t
        else
          answered 0x15 tag .accepted [u1 (LineState.isolated .host).code] s t
          ∧ if (s.line ⟨n, h⟩).state = .isolated .host then onlyChanges [.hlc] s t ∧ t.hlc.notices = s.hlc.notices
            else
              (t.line ⟨n, h⟩).state = .isolated .host ∧ (t.line ⟨n, h⟩).idleTimer = .stopped
              ∧ (t.line ⟨n, h⟩).holdTimer = .stopped ∧ (t.line ⟨n, h⟩).flushTimer = .stopped
              ∧ (t.line ⟨n, h⟩).owed = (if (s.line ⟨n, h⟩).state.inService then 0 else (s.line ⟨n, h⟩).owed)
              ∧ onlyChanges [.gru, .thu, .mdu, .hlc] s t
      else refused 0x15 tag (.refusedRange 1 0) s t)
  ∧ ∀ (tag : Byte) (n : Nat) (s : State), takes (.groutLineReinstate tag n) s →
    ∃ t, exec (.groutLineReinstate tag n) s = .next t ∧
      if h : n < 6 then
        if (s.line ⟨n, h⟩).state.cause ≠ none ∧ s.online (8 + n) = true ∧ s.geometry ≠ none then
          answered 0x15 tag .accepted [u1 (t.line ⟨n, h⟩).state.code, i4 (t.line ⟨n, h⟩).owed] s t
          ∧ (t.line ⟨n, h⟩).owed = satAddInt (s.line ⟨n, h⟩).owed s.gru.pool ∧ t.gru.pool = 0
          ∧ (t.line ⟨n, h⟩).state = (if (s.profile.doseStart : Int) ≤ (t.line ⟨n, h⟩).owed
              ∧ dosingMode s.mdu.mode = true then .injecting else .idle)
          ∧ (∀ j : Fin 6, (t.line j).effective = effectiveWeight t.gru j)
          ∧ onlyChanges [.gru, .thu, .mdu, .hlc] s t
        else refused 0x15 tag (.refusedState 0 0) s t
      else refused 0x15 tag (.refusedRange 1 0) s t

/-- Transfers between lines and pool keep the shortfall measure: expiry of a line's timers and the GROUT_LINE requests
leave it as it was. Accrual raises it by the step's demand, and a report lowers it by the volume of its new strokes.
This is said while nothing owed can reach the saturation bound (R89). The effective weights share out 256: while a line
is in service they sum to exactly 256 and every line out of service has weight 0, and with none all are 0 (R103). -/
def Obligations.OwedGroutAndWeightsAreConserved : Prop :=
  (∀ (c : Instr) (n a : Nat) (tag : Byte) (s t : State),
    c ∈ [.idleTimerExpiry n, .holdTimerExpiry n, .flushTimerExpiry n, .groutLineFlush tag n a,
         .groutLineIsolate tag n, .groutLineReinstate tag n] →
    owedMagnitude s.gru ≤ 999999999 → exec c s = .next t → shortfallMeasure t.gru = shortfallMeasure s.gru)
  ∧ (∀ (r : StepRecord) (s : State), owedMagnitude s.gru + r.grout.toList.sum ≤ 999999999 →
      shortfallMeasure (accrue r s).gru = shortfallMeasure s.gru + (r.grout.toList.sum : Int))
  ∧ (∀ (i : Fin 6) (r : GroutReport) (s : State),
      owedMagnitude s.gru + newStrokes (s.line i) r.count * strokeVolume s i ≤ 999999999 →
      shortfallMeasure (groutReport i r s).gru
        = shortfallMeasure s.gru - ((newStrokes (s.line i) r.count * strokeVolume s i : Nat) : Int))
  ∧ (∀ (i : Fin 6) (s : State), owedMagnitude s.gru ≤ 999999999 →
      shortfallMeasure (groutLost i s).gru = shortfallMeasure s.gru)
  ∧ ∀ (s : State) (g : Geometry), s.GroutLaw → s.geometry = some g →
    ((allLines.map fun i => (s.line i).effective).sum = if noneServing s.gru then 0 else 256)
    ∧ ∀ i : Fin 6, (s.line i).state.inService = false → (s.line i).effective = 0

/-! ## Build -/

/-- WRITE_STEP above slot 127 is refused, while a plan is active it is refused busy, and an entry is refused at its
first field out of range, checked in order; otherwise it replaces the slot's entry whole. READ_STEP answers with the
slot's entry in every mode and plan state. Nothing else changes (R112).
The numbers of the fields in a refusal, and the check of the slot before that of the plan, are those of log 24. -/
def Obligations.StepEntriesAreWrittenAndRead : Prop :=
  (∀ (tag : Byte) (n : Nat) (e : StepFields) (s : State), takes (.writeStep tag n e) s →
    ∃ t, exec (.writeStep tag n e) s = .next t ∧
      if h : n < 128 then
        if s.bld.plan = .running ∨ s.bld.plan = .waiting ∨ s.bld.plan.pauseCause ≠ none then
          refused 0x0E tag .refusedBusy s t
        else if 8 < e.kind then refused 0x0E tag (.refusedRange 2 0) s t
        else if 2 < e.segment then refused 0x0E tag (.refusedRange 3 0) s t
        else if 15 < e.position then refused 0x0E tag (.refusedRange 4 0) s t
        else if e.width < 1 ∨ 6 < e.width then refused 0x0E tag (.refusedRange 5 0) s t
        else if 127 < e.target then refused 0x0E tag (.refusedRange 6 0) s t
        else if 30000 < e.stroke then refused 0x0E tag (.refusedRange 7 0) s t
        else if 600 < e.timeout then refused 0x0E tag (.refusedRange 8 0) s t
        else if 1 < e.overlap then refused 0x0E tag (.refusedRange 9 0) s t
        else
          answeredQuietly 0x0E tag .accepted [] s t ∧ onlyChanges [.bld, .hlc] s t
          ∧ { t.bld with table := s.bld.table } = s.bld
          ∧ (∀ m : Fin 128, m.val ≠ n → t.bld.table[m] = s.bld.table[m])
          ∧ (t.bld.table[n]).kind.code = e.kind ∧ (t.bld.table[n]).segment.code = e.segment
          ∧ (t.bld.table[n]).position = e.position ∧ (t.bld.table[n]).width = e.width
          ∧ (t.bld.table[n]).target = e.target ∧ (t.bld.table[n]).stroke = e.stroke
          ∧ (t.bld.table[n]).timeout = e.timeout ∧ flagCode (t.bld.table[n]).overlap = e.overlap
      else refused 0x0E tag (.refusedRange 1 0) s t)
  ∧ ∀ (tag : Byte) (n : Nat) (s : State), takes (.readStep tag n) s →
    ∃ t, exec (.readStep tag n) s = .next t ∧
      if h : n < 128 then
        answeredQuietly 0x0F tag .accepted (stepBytes s.bld.table[n]) s t ∧ onlyChanges [.hlc] s t
      else refused 0x0F tag (.refusedRange 1 0) s t

/-- BUILD_START is refused for a slot above 127, busy while a plan is active, and outside BORING and STANDSTILL, with
build_done true or the ERECTOR station not ONLINE. Otherwise the plan starts at the slot with an empty stack and base
and outcome 0, the machine is in BORING, and the reply carries the plan state at the event's end: an AWAIT_STROKE not yet reached waits, a
PICK with no segment held and no orphan begins the next operation, and a WITHDRAW asks THU for its arc and runs, waits
or faults with ARC_BUSY by THU's answer (R28, R114 to R116, R118, R120, R123, R174).
The model's own choices: the loop count and when the reply's plan state is taken (log 18), the check of the slot before
that of the plan (log 24), the break event after the first issue (log 4), and the clock (log 3). -/
def Obligations.BuildStartIssuesFirstStep : Prop :=
  ∀ (tag : Byte) (n : Nat) (s : State), takes (.buildStart tag n) s →
    ∃ t, exec (.buildStart tag n) s = .next t ∧
      if h : n < 128 then
        if s.bld.plan.active then refused 0x10 tag .refusedBusy s t
        else if (s.mdu.mode = .boring ∨ s.mdu.mode = .standstill) ∧ s.rgu.current.buildDone = false
            ∧ s.online 7 = true then
          answered 0x10 tag .accepted [u1 t.bld.plan.code] s t
          ∧ t.mdu.mode = .boring ∧ t.mdu.halts = s.mdu.halts ∧ t.bld.table = s.bld.table
          ∧ onlyChanges [.adv, .thu, .chu, .fcu, .gru, .bld, .rgu, .mdu, .hlc] s t
          ∧ ∀ (e : PlanStep) (b : Bld), e = s.bld.table[n] → s.bld.inbox = [] →
              b = { s.bld with base := 0, stack := [], outcome := 0, lastPlaced := none, slot := ⟨n, h⟩, loopCount := 0,
                               stepTimer := .running (s.now + (if e.timeout = 0 then s.profile.stepTimeout
                                                               else e.timeout) * 1000) } →
              (e.kind = .awaitStroke → s.adv.stroke < e.stroke →
                t.bld = { b with plan := .waiting, flight := .stroke })
              ∧ (e.kind = .pick → s.bld.held = none → s.bld.orphan = none →
                t.bld = { b with plan := .running, opNumber := nextNumber s.bld.opNumber, command := .pick e.segment,
                                 flight := .erector { number := nextNumber s.bld.opNumber,
                                                      work := .pick e.segment } })
              ∧ (e.kind = .withdraw → ∃ r : ArcRequest, r = { start := e.position % 16, width := e.width }
                ∧ match arcAnswer r s with
                  | .busy => t.bld.plan = .faulted .arcBusy ∧ (s.bld.arcs = [] → t.thu.waiting = s.thu.waiting)
                  | .waits => t.bld = { b with plan := .waiting, flight := .admission } ∧ t.thu.waiting = some r
                  | .granted id false =>
                    t.bld = { b with plan := .running, flight := .release id, arcs := s.bld.arcs ++ [
                      { id, start := r.start, width := r.width, phase := .withdrawing, placed := false }] }
                    ∧ t.thu.arcs = (requestArc r s).thu.arcs
                  | .granted _ true => s.releases r = false)
        else refused 0x10 tag (.refusedState 0 0) s t
      else refused 0x10 tag (.refusedRange 1 0) s t

/-- BUILD_PAUSE sets a RUNNING or WAITING plan to PAUSED(HOST), leaves a PAUSED one, and is refused otherwise.
BUILD_RESUME is refused in STANDBY and HALTED and for a plan that is not PAUSED; otherwise a step in flight makes the
plan RUNNING or WAITING, and without one the step at the current slot is issued, in the same mode: a step is then in
flight or the plan is COMPLETE or FAULTED, an AWAIT_STROKE not yet reached waits, a PICK with no segment held or a
PLACE that passes its checks begins the next operation while there is no orphan, and a WITHDRAW runs, waits or faults
by THU's answer; the loop count and MDU's being told RUNNING before the issue are log 18. BUILD_ABORT faults
an active plan with ABORTED and is refused otherwise; the step timer's expiry faults it with STEP_TIMEOUT, or
ARC_TIMEOUT for a WITHDRAW not yet granted. A fault clears what is in flight and keeps the slot, the stack, the base,
the held segment and the outcome (R28, R113, R115, R116, R118 to R120, R123, R127 to R130).
The clock is the model's own: log 3. -/
def Obligations.PlansPauseResumeAndFault : Prop :=
  (∀ (tag : Byte) (s : State), takes (.buildPause tag) s → ∃ t, exec (.buildPause tag) s = .next t ∧
    if s.bld.plan.active then
      answeredQuietly 0x11 tag .accepted [] s t
      ∧ t.bld = { s.bld with plan := if s.bld.plan.busy then .paused .host else s.bld.plan }
      ∧ (s.bld.plan.busy = true → t.mdu.planBusy = false)
      ∧ { t.mdu with planBusy := s.mdu.planBusy, standstill := s.mdu.standstill } = s.mdu
      ∧ onlyChanges [.bld, .mdu, .hlc] s t
    else refused 0x11 tag (.refusedState 0 0) s t)
  ∧ (∀ (tag : Byte) (s : State), takes (.buildResume tag) s → ∃ t, exec (.buildResume tag) s = .next t ∧
    if s.bld.plan.pauseCause ≠ none ∧ s.mdu.mode ≠ .standby ∧ s.mdu.mode ≠ .halted then
      answered 0x12 tag .accepted [] s t ∧ t.bld.plan.pauseCause = none ∧ t.bld.table = s.bld.table
      ∧ t.mdu.mode = s.mdu.mode ∧ t.mdu.halts = s.mdu.halts
      ∧ onlyChanges [.adv, .thu, .gru, .bld, .rgu, .mdu, .hlc] s t
      ∧ (s.bld.flight ≠ .none →
          t.bld = { s.bld with plan := s.bld.flight.activity } ∧ t.mdu.planBusy = true
          ∧ onlyChanges [.bld, .mdu, .hlc] s t ∧ t.hlc.notices = s.hlc.notices)
      ∧ (s.bld.flight = .none →
          (t.bld.flight ≠ .none ∧ t.bld.plan.busy = true ∨ t.bld.plan = .complete ∨ ∃ c, t.bld.plan = .faulted c)
          ∧ t.mdu.planBusy = t.bld.plan.busy
          ∧ ∀ (e : PlanStep) (b : Bld), e = s.bld.step → s.bld.inbox = [] →
            b = { s.bld with loopCount := 0, stepTimer := .running (s.now +
                    (if e.timeout = 0 then s.profile.stepTimeout else e.timeout) * 1000) } →
            (e.kind = .awaitStroke → s.adv.stroke < e.stroke →
              t.bld = { b with plan := .waiting, flight := .stroke })
            ∧ (e.kind = .pick → s.bld.held = none → s.bld.orphan = none →
              operationBegun (.pick e.segment) b t.bld)
            ∧ (e.kind = .pick → s.bld.held ≠ none → t.bld.plan = .faulted .segmentHeld)
            ∧ (e.kind = .place → match placeCheck s with
              | .error c => t.bld.plan = .faulted c
              | .ok w => s.bld.orphan = none → operationBegun w b t.bld)
            ∧ (e.kind = .withdraw → ∃ r : ArcRequest, r = { start := (s.bld.base + e.position) % 16, width := e.width }
              ∧ match arcAnswer r s with
                | .busy => t.bld.plan = .faulted .arcBusy
                | .waits => t.bld = { b with plan := .waiting, flight := .admission } ∧ t.thu.waiting = some r
                | .granted id false =>
                  t.bld = { b with plan := .running, flight := .release id, arcs := s.bld.arcs ++ [
                    { id, start := r.start, width := r.width, phase := .withdrawing, placed := false }] }
                | .granted _ true => s.releases r = false))
    else refused 0x12 tag (.refusedState 0 0) s t)
  ∧ (∀ (tag : Byte) (s : State), takes (.buildAbort tag) s → ∃ t, exec (.buildAbort tag) s = .next t ∧
    if s.bld.plan.active then
      answered 0x13 tag .accepted [] s t ∧ planFaulted .aborted s t ∧ onlyChanges [.thu, .bld, .mdu, .hlc] s t
      ∧ t.mdu.mode = s.mdu.mode ∧ t.mdu.halts = s.mdu.halts
    else refused 0x13 tag (.refusedState 0 0) s t)
  ∧ ∀ (s : State) (e : Nat), s.bld.stepTimer = .running e → ∃ t, exec .stepTimerExpiry s = .next t
    ∧ planFaulted (if s.bld.flight = .admission then .arcTimeout else .stepTimeout) s t ∧ t.now = max s.now e
    ∧ t.mdu.mode = s.mdu.mode ∧ t.mdu.halts = s.mdu.halts
    ∧ onlyChanges [.thu, .bld, .mdu, .hlc, .clock] s t ∧ linkNotices s t

/-- RECORD_SEGMENT is refused for a field out of range, while a plan is active or the geometry record is UNSET, at a
full ring and out of key order. Otherwise the entry is appended with the outcome MANUAL; at the full count build_done
is set with a BUILD_DONE notice, and the ring closes if stroke_done holds. An ERECTOR report of the operation in flight
ends the step as its result says, said whole for a PAUSED plan, which issues nothing after it: a picked segment is held,
a placed one is recorded with the arc marked, and a result of the other action or STOPPED faults the plan. The orphan
operation's report records nothing in the plan, and any other report leaves BLD as it was (R117 to R119, R127, R131,
R133, R140, R142, R143). The segment that a SEGMENT_UNRECORDED notice names for an orphan PICK, and a fault by a wrong
result that leaves no orphan, are log 19; the loop count is log 18; the range checked before the state is log 24. -/
def Obligations.RecordSegmentAppends : Prop :=
  (∀ (tag : Byte) (kind start width : Nat) (s : State), takes (.recordSegment tag kind start width) s →
    ∃ t, exec (.recordSegment tag kind start width) s = .next t ∧
      match segKindOfCode kind with
      | none => refused 0x14 tag (.refusedRange 1 0) s t
      | some k =>
        if 15 < start then refused 0x14 tag (.refusedRange 2 0) s t
        else if width < 1 ∨ 6 < width then refused 0x14 tag (.refusedRange 3 0) s t
        else if s.bld.plan.active = true ∨ s.geometry = none then refused 0x14 tag (.refusedState 0 0) s t
        else if segmentCount s ≤ s.rgu.current.segments.length then refused 0x14 tag (.refusedState 1 0) s t
        else if ¬ (k = .key ↔ s.rgu.current.segments.length + 1 = segmentCount s) then
          refused 0x14 tag (.refusedState 2 0) s t
        else ∃ r : RingRecord, r = { s.rgu.current with segments := s.rgu.current.segments ++
              [{ sequence := s.rgu.current.segments.length + 1, kind := k, start, width, outcome := .manual }] }
          ∧ if k ≠ .key then
              answeredQuietly 0x14 tag .accepted [] s t ∧ t.rgu = { s.rgu with current := r }
              ∧ onlyChanges [.rgu, .hlc] s t
            else if s.rgu.current.strokeDone = false then
              answeredWithNotice 0x14 tag .accepted []
                (noticeFrame .buildDone [u2 s.rgu.current.number, u1 r.segments.length]) s t
              ∧ t.rgu = { s.rgu with current := { r with buildDone := true } } ∧ onlyChanges [.rgu, .hlc] s t
            else
              answered 0x14 tag .accepted [] s t ∧ t.rgu.current.number = nextRing s.rgu.current.number
              ∧ t.rgu.current.segments = [] ∧ t.rgu.current.buildDone = false
              ∧ (∃ e, t.rgu.log.getLast? = some e ∧ e.record.segments = r.segments ∧ e.record.buildDone = true)
              ∧ t.adv = { s.adv with stroke := s.adv.stroke - (s.geometry.map Geometry.ringLength).getD 0 }
              ∧ onlyChanges [.adv, .thu, .gru, .rgu, .mdu, .hlc] s t)
  ∧ (∀ (r : ErectorReport) (s : State), s.bld.inbox = [] →
    (r.result = none ∨ (∀ o, s.bld.orphan = some o → o.number ≠ r.number)
      ∧ ∀ op, s.bld.flight = .erector op → op.number ≠ r.number) →
    takeReport (.erector r) s = { s with bld := { s.bld with loopCount := 0 } })
  ∧ (∀ (res : ErectorResult) (op : Operation) (s : State), s.bld.inbox = [] → s.bld.flight = .erector op →
    (∀ o, s.bld.orphan = some o → o.number ≠ op.number) → s.bld.plan.busy = false → s.bld.slot.val < 127 →
    ∃ u b, u = takeReport (.erector { number := op.number, result := some res }) s
      ∧ b = { s.bld with flight := .none, stepTimer := .stopped, loopCount := 0 }
      ∧ match op.work, res with
        | .pick kind, .pickOk =>
          u.bld.slot.val = s.bld.slot.val + 1
          ∧ { u.bld with slot := s.bld.slot } = { b with held := some kind, outcome := 0 }
          ∧ onlyChanges [.bld] s u
        | .pick _, .pickRejected =>
          u.bld.slot.val = s.bld.slot.val + 1
          ∧ { u.bld with slot := s.bld.slot } = { b with held := none, outcome := 2 }
          ∧ onlyChanges [.bld] s u
        | .place .., .placeRetry =>
          u.bld.slot.val = s.bld.slot.val + 1 ∧ { u.bld with slot := s.bld.slot } = { b with outcome := 3 }
          ∧ onlyChanges [.bld] s u
        | .place kind start width arc, .placed =>
          u.bld.slot.val = s.bld.slot.val + 1
          ∧ { u.bld with slot := s.bld.slot } = { b with
              held := none, outcome := 0, lastPlaced := some arc,
              arcs := s.bld.arcs.map fun a => if a.id = arc then { a with placed := true } else a }
          ∧ u.rgu = { s.rgu with current := { s.rgu.current with segments := s.rgu.current.segments ++ [
              { sequence := s.rgu.current.segments.length + 1, kind, start, width, outcome := .placed }] } }
          ∧ u.thu = { s.thu with arcs := s.thu.arcs.map fun a => if a.id = arc then { a with placed := true } else a }
          ∧ onlyChanges [.bld, .rgu, .thu] s u
        | .place kind start width arc, .placedOffset =>
          u.bld.slot.val = s.bld.slot.val + 1
          ∧ { u.bld with slot := s.bld.slot } = { b with
              held := none, outcome := 1, lastPlaced := some arc,
              arcs := s.bld.arcs.map fun a => if a.id = arc then { a with placed := true } else a }
          ∧ u.rgu = { s.rgu with current := { s.rgu.current with segments := s.rgu.current.segments ++ [
              { sequence := s.rgu.current.segments.length + 1, kind, start, width, outcome := .placedOffset }] } }
          ∧ u.thu = { s.thu with arcs := s.thu.arcs.map fun a => if a.id = arc then { a with placed := true } else a }
          ∧ onlyChanges [.bld, .rgu, .thu] s u
        | _, _ => planFaulted .erectorStopped { s with bld := { s.bld with flight := .none } } u)
  ∧ ∀ (res : ErectorResult) (op : Operation) (s : State), s.bld.inbox = [] → s.bld.orphan = some op →
    s.bld.flight ≠ .orphan → ∃ u, u = takeReport (.erector { number := op.number, result := some res }) s
      ∧ u.bld = { s.bld with orphan := none, loopCount := 0, held := match res with
          | .placed => none
          | .placedOffset => none
          | .pickOk => some op.work.segment.1
          | .pickRejected => none
          | _ => s.bld.held }
      ∧ u.hlc = (if res = .placed ∨ res = .placedOffset then
          notify .segmentUnrecorded [u2 s.rgu.current.number, u1 op.work.segment.1.code, u1 op.work.segment.2.1,
            u1 op.work.segment.2.2, u1 res.code] s else s).hlc
      ∧ onlyChanges [.bld, .hlc] s u

/-! ## Queries -/

/-- GET_STATUS, GET_GEOMETRY, READ_PROFILE, GET_RING, GET_LOG_ENTRY and GET_MUCK answer with what they name, raise no
notice and change nothing else; GET_STATUS alone clears the notices-dropped flag, once its header carries it. A part
above 6, a profile other than A to D, and a ring number that is 0 or that no entry carries are refused (R82, R147,
R154, R198). The layouts of the replies are those of log 14, the codes of the permission, the gate and the trip condition
those of log 13, the bytes of the shortfall measure are free by log 12, and part 1 of GET_STATUS is sent whole above the
200 bytes of R193 by log 27. -/
def Obligations.QueriesAnswerAndChangeNothing : Prop :=
  (∀ (tag : Byte) (p : Nat) (s : State), takes (.getStatus tag p) s → ∃ t, exec (.getStatus tag p) s = .next t ∧
    match statusPart s p with
    | none => 6 < p ∧ refused 0x01 tag (.refusedRange 1 0) s t
    | some fields =>
      p ≤ 6 ∧ answered 0x01 tag .accepted (statusData p fields (startRequest s)) s t ∧ receiverSame s t
      ∧ t.hlc.notices = s.hlc.notices ∧ t.hlc.dropped = false ∧ onlyChanges [.hlc] s t)
  ∧ (∀ (tag : Byte) (s : State), takes (.getGeometry tag) s → ∃ t, exec (.getGeometry tag) s = .next t
      ∧ answeredQuietly 0x03 tag .accepted (geometryData s) s t ∧ onlyChanges [.hlc] s t)
  ∧ (∀ (tag : Byte) (n : Nat) (s : State), takes (.readProfile tag n) s → ∃ t, exec (.readProfile tag n) s = .next t ∧
    match profileOfCode n with
    | none => refused 0x05 tag (.refusedRange 1 0) s t
    | some p => answeredQuietly 0x05 tag .accepted (profileData p s) s t ∧ onlyChanges [.hlc] s t)
  ∧ (∀ (tag : Byte) (s : State), takes (.getRing tag) s → ∃ t, exec (.getRing tag) s = .next t
      ∧ answeredQuietly 0x1A tag .accepted (ringData s) s t ∧ onlyChanges [.hlc] s t)
  ∧ (∀ (tag : Byte) (n : Nat) (s : State), takes (.getLogEntry tag n) s → ∃ t, exec (.getLogEntry tag n) s = .next t ∧
    if n = 0 ∨ 65535 < n then refused 0x1B tag (.refusedRange 1 0) s t
    else match newestEntry n s.rgu.log with
      | none => refused 0x1B tag (.refusedRange 1 3) s t
      | some e => answeredQuietly 0x1B tag .accepted (entryData e) s t ∧ onlyChanges [.hlc] s t)
  ∧ ∀ (tag : Byte) (s : State), takes (.getMuck tag) s → ∃ t, exec (.getMuck tag) s = .next t
      ∧ answeredQuietly 0x1C tag .accepted (muckData s) s t ∧ onlyChanges [.hlc] s t

/-! ## Settings -/

/-- SET_GEOMETRY is refused outside STANDBY and at its first failing field. Otherwise the record is stored whole and
every unit takes it: S, P and the remainders at 0, the open ring reopened empty, the transit queue cleared and the
balance begun anew, the lines' figures at 0 and their weights configured, the setpoints clamped, the torque ceiling
formed, STROKE_LIMIT withdrawn (R12, R23, R52, R80, R103, R108, R148, R151, R152). -/
def Obligations.SetGeometryReachesEveryUnit : Prop :=
  ∀ (tag : Byte) (g : Geometry) (s : State), takes (.setGeometry tag g) s →
    ∃ t, exec (.setGeometry tag g) s = .next t ∧
      if s.mdu.mode ≠ .standby then refused 0x02 tag (.refusedState 0 0) s t
      else match geometryFailure g with
        | some (field, failure) => refused 0x02 tag (.refusedRange field failure) s t
        | none =>
          answered 0x02 tag .accepted [] s t
          ∧ t.pfs = { s.pfs with geometry := some g }
          ∧ t.adv = { s.adv with stroke := 0, acc := 0, remVolume := 0, remMass := 0,
                                 remGrout := Vector.replicate 6 0 }
          ∧ t.rgu = { s.rgu with current :=
              { RingRecord.opened s.rgu.current.number 0 s.pfs.active with measured := some 0 } }
          ∧ t.fcu = { s.fcu with transit := [], weighing := some s.rgu.current.number, due := 0, measured := 0,
                                 excav := .normal, excavTimer := .stopped, underMark := false }
          ∧ (∀ i : Fin 6, (t.line i).configured = some g.lineWeight[i] ∧ (t.line i).accrued = 0
              ∧ (t.line i).delivered = 0 ∧ (t.line i).effective = effectiveWeight t.gru i)
          ∧ t.gru.figuresRing = s.rgu.current.number
          ∧ (∀ i : Fin 4, t.thu.setpoints[i] = min g.pairMaxPressure s.thu.setpoints[i])
          ∧ t.chu.ceiling
              = g.ratedTorque * (if s.chu.zone then s.profile.throttlePct else s.profile.ceilingPct) / 100
          ∧ { t.chu with ceiling := s.chu.ceiling, stallTimer := s.chu.stallTimer } = s.chu
          ∧ t.mdu.mode = .standby ∧ t.mdu.halts = s.mdu.halts ∧ t.mdu.holds[HoldReason.strokeLimit.index] = false
          ∧ onlyChanges [.adv, .thu, .chu, .fcu, .gru, .rgu, .pfs, .mdu, .hlc] s t

/-- WRITE_PROFILE is refused for a name that is none, for the active and the pending profile, and at its first failing
field; otherwise it replaces that profile and nothing else changes. SELECT_PROFILE clears a pending profile when it
names the active one, makes the named one pending in BORING, and activates it at once in any other mode; the reply
carries both. An activation at once is entered in the open record's list with the step serial before it; ADV takes the
immediate step of P under the new profile when P is at or above the new quantum, and nothing otherwise; a lower H_trip
that H has reached posts LOAD_TRIP. This is said where no word of THU can move the plan, and the entry for a ring that
does not close at the step (R16, R53, R141, R153, R155, R157, R158).
A field's own range and a relation fail with different codes by log 15; the fields of a refusal, a wrong name among
them, are numbered by log 24. -/
def Obligations.ProfilesAreWrittenAndSelected : Prop :=
  (∀ (tag : Byte) (n : Nat) (p : Profile) (s : State), takes (.writeProfile tag n p) s →
    ∃ t, exec (.writeProfile tag n p) s = .next t ∧
      match profileOfCode n with
      | none => refused 0x04 tag (.refusedRange 1 0) s t
      | some name =>
        if s.pfs.active = name ∨ s.pfs.next = some name then refused 0x04 tag (.refusedState 0 0) s t
        else match profileFailure p with
          | some (field, failure) => refused 0x04 tag (.refusedRange field failure) s t
          | none =>
            answeredQuietly 0x04 tag .accepted [] s t
            ∧ t.pfs = { s.pfs with profiles := s.pfs.profiles.set name.index p } ∧ t.profile = s.profile
            ∧ onlyChanges [.pfs, .hlc] s t)
  ∧ ∀ (tag : Byte) (n : Nat) (s : State), takes (.selectProfile tag n) s →
    ∃ t, exec (.selectProfile tag n) s = .next t ∧
      match profileOfCode n with
      | none => refused 0x06 tag (.refusedRange 1 0) s t
      | some name =>
        if s.pfs.active = name then
          answeredQuietly 0x06 tag .accepted [u1 name.index, opt 1 none] s t
          ∧ t.pfs = { s.pfs with next := none } ∧ onlyChanges [.pfs, .hlc] s t
        else if s.mdu.mode = .boring then
          answeredQuietly 0x06 tag .accepted [u1 s.pfs.active.index, opt 1 (some name.index.val)] s t
          ∧ t.pfs = { s.pfs with next := some name } ∧ onlyChanges [.pfs, .hlc] s t
        else
          answered 0x06 tag .accepted [u1 name.index, opt 1 none] s t
          ∧ t.pfs = { s.pfs with active := name, next := none }
          ∧ (s.mdu.mode = .standby → t.mdu.mode = .standby ∧ (s.mdu.Lawful → t.mdu.halts = s.mdu.halts))
          ∧ onlyChanges [.adv, .thu, .chu, .fcu, .gru, .bld, .rgu, .pfs, .mdu, .hlc] s t
          ∧ ∀ new : Profile, new = s.pfs.profiles[name.index] → s.bld.inbox = [] →
            (new.nMin = s.profile.nMin ∨ s.thu.arcs = [] ∧ s.thu.waiting = none) →
            (if new.quantum ≤ s.adv.acc then
              { t.adv with stroke := s.adv.stroke, remGrout := s.adv.remGrout }
                = { advAfterStep s.adv.acc { s with pfs := t.pfs } with remGrout := s.adv.remGrout }
            else t.adv = s.adv)
            ∧ (if new.hTrip < s.profile.hTrip ∧ new.hTrip ≤ s.chu.loadIndex ∧ s.mdu.mode ≠ .standby then
                t.mdu.mode = .halted ∧ haltMember t.mdu .loadTrip = true
              else t.mdu.mode = s.mdu.mode)
            ∧ (new.quantum ≤ s.adv.acc →
                (∀ g, s.geometry = some g → s.adv.stroke < g.ringLength ∨ s.rgu.current.buildDone = false) →
                changeEntered name s.adv.serial s.rgu.current t.rgu.current)
            ∧ (s.adv.acc < new.quantum → changeEntered name s.adv.serial s.rgu.current t.rgu.current)

/-! ## Modes, holds and halts -/

/-- SET_MODE(STANDBY) is accepted in every mode: the halt-cause set is emptied and so is the hold-reason set, but that
GRU posts GROUT_NONE again while no line is in service; the outputs are deasserted and the mode is STANDBY. From
another mode every unit takes the change: no speed is asked of the drive, the screw is at 0, no line injects, an
active plan faults with MODE_STANDBY, and a profile pending in BORING is activated. Without such an activation the
hold-reason set then holds at most GROUT_NONE, while no line is in service, and THRUST_MIN, which THU posts when the
plan's fault has it reseat an arc and too few pairs thrust; with one, only HOST_HOLD is said to be out of the set, for
the units take up the new profile (R27, R45, R65, R93, R101, R106, R129, R130, R157, R162 to R165). That the reply
carries the mode alone is log 14. -/
def Obligations.SetModeStandbyEmptiesTheSets : Prop :=
  ∀ (tag : Byte) (s : State), takes (.setMode tag 0) s → ∃ t, exec (.setMode tag 0) s = .next t
    ∧ answered 0x07 tag .accepted [u1 0] s t ∧ t.mdu.mode = .standby ∧ (∀ c : HaltCause, t.mdu.halts[c.index] = none)
    ∧ t.mdu.holds[HoldReason.hostHold.index] = false ∧ t.mdu.permitted = false ∧ t.mdu.haltOut = false
    ∧ if s.mdu.mode = .standby then
        t.mdu.previous = s.mdu.previous
        ∧ (∀ r : HoldReason, t.mdu.holds[r.index] = (decide (r = .groutNone) && noneServing s.gru))
        ∧ onlyChanges [.thu, .chu, .gru, .mdu, .hlc] s t
      else
        t.mdu.previous = s.mdu.mode ∧ t.chu.hostSpeed = 0 ∧ t.fcu.screw = 0 ∧ t.fcu.regulator = .off
        ∧ (∀ i : Fin 6, (t.line i).state ≠ .injecting)
        ∧ (s.bld.plan.active = true → t.bld.plan = .faulted .modeStandby)
        ∧ (s.mdu.mode = .boring → ∀ p, s.pfs.next = some p → t.pfs.active = p ∧ t.pfs.next = none)
        ∧ ((s.mdu.mode = .boring → s.pfs.next = none) →
            (∀ r : HoldReason, r ≠ .thrustMin →
              t.mdu.holds[r.index] = (decide (r = .groutNone) && noneServing t.gru))
            ∧ (s.bld.inbox = [] → t.mdu.holds[HoldReason.thrustMin.index]
                = (s.bld.plan.active && s.bld.arcs.any (arcToReseat s) && thrustMin t)))
        ∧ onlyChanges [.adv, .thu, .chu, .fcu, .gru, .bld, .rgu, .pfs, .mdu, .hlc] s t

/-- SET_MODE(READY) from STANDBY is refused at the first of its three checks to fail, with what R195 has it name.
Otherwise every hold reason that still stands is posted again, and the machine is in READY, or in HALTED when a halt
cause still stands (R17, R26, R27, R53, R81, R106, R162, R195; the reply carries READY: log 5, and the mode alone: log
14). -/
def Obligations.ReadyFromStandbyPostsWhatStands : Prop :=
  ∀ (tag : Byte) (s : State), takes (.setMode tag 1) s → s.mdu.mode = .standby →
    ∃ t, exec (.setMode tag 1) s = .next t ∧
      if s.geometry = none then refused 0x07 tag (.refusedState 1 0) s t
      else match s.criticalOffline with
        | some a => 1 ≤ a ∧ a ≤ 7 ∧ refused 0x07 tag (.refusedState 2 a) s t
        | none =>
          if thrustingCount s.thu < s.profile.nMin then refused 0x07 tag (.refusedState 3 0) s t
          else
            answered 0x07 tag .accepted [u1 1] s t
            ∧ (∀ r : HoldReason, t.mdu.holds[r.index] = (s.mdu.holds[r.index] || match r with
                | .strokeLimit => strokeLimitDue s
                | .groupShort => s.thu.groupTimer == .expired && anyGroupShort s
                | .thrustMin => thrustMin s
                | .binFull => s.fcu.binHalt
                | .chamberHigh => s.fcu.chamberHigh
                | .groutShort => s.gru.shortfall == .short
                | .groutNone => noneServing s.gru
                | .hostHold => false))
            ∧ (if rollbackDue s = true ∨ tripDue s = true ∨ faceBlind s = true ∨ s.fcu.under = .posted then
                t.mdu.mode = .halted ∧ t.mdu.previous = .ready ∧ t.mdu.haltOut = true
                ∧ (haltMember t.mdu .rollbackLimit = (haltMember s.mdu .rollbackLimit || rollbackDue s))
              else t.mdu.mode = .ready ∧ t.mdu.previous = .standby ∧ t.mdu.haltOut = false
                ∧ t.mdu.halts = s.mdu.halts)
            ∧ t.mdu.permitted = false ∧ t.chu.hostSpeed = 0
            ∧ onlyChanges [.thu, .chu, .fcu, .gru, .bld, .mdu, .hlc] s t

/-- SET_MODE(READY) and SET_MODE(BORING) from the other modes: the mode in force is accepted and changes nothing; READY
from BORING and STANDSTILL and BORING from READY and STANDSTILL change the mode, with the permission that the holds
give; READY from HALTED and BORING from STANDBY and HALTED are refused, and so are STANDSTILL, HALTED and a code of no
mode in every mode. A profile pending in BORING is activated on leaving it (R157, R162, R163, R165, R174). HOLD with a
code of neither on nor off is refused: log 13. That the reply to SET_MODE carries the mode alone is log 14. -/
def Obligations.SetModeReadyAndBoring : Prop :=
  (∀ (tag : Byte) (s : State), takes (.setMode tag 1) s → s.mdu.mode ≠ .standby →
    ∃ t, exec (.setMode tag 1) s = .next t ∧
      if s.mdu.mode = .halted then refused 0x07 tag (.refusedState 0 0) s t
      else if s.mdu.mode = .ready then answeredQuietly 0x07 tag .accepted [u1 1] s t ∧ onlyChanges [.hlc] s t
      else
        answered 0x07 tag .accepted [u1 1] s t ∧ t.mdu.permitted = false ∧ t.chu.hostSpeed = 0
        ∧ (s.mdu.mode = .boring → ∀ p, s.pfs.next = some p → t.pfs.active = p ∧ t.pfs.next = none)
        ∧ ((s.mdu.mode = .boring → s.pfs.next = none) →
            t.mdu.mode = .ready ∧ t.mdu.previous = s.mdu.mode ∧ t.mdu.holds = s.mdu.holds
            ∧ t.mdu.halts = s.mdu.halts ∧ onlyChanges [.thu, .chu, .fcu, .gru, .mdu, .hlc] s t))
  ∧ (∀ (tag : Byte) (m : Nat) (s : State), takes (.setMode tag m) s → 3 ≤ m →
    ∃ t, exec (.setMode tag m) s = .next t ∧ refused 0x07 tag (.refusedRange 1 0) s t)
  ∧ (∀ (tag : Byte) (w : Nat) (s : State), takes (.hold tag w) s → switchOfCode w = none →
    ∃ t, exec (.hold tag w) s = .next t ∧ refused 0x08 tag (.refusedRange 1 0) s t)
  ∧ ∀ (tag : Byte) (s : State), takes (.setMode tag 2) s → ∃ t, exec (.setMode tag 2) s = .next t ∧
      if s.mdu.mode = .standby ∨ s.mdu.mode = .halted then refused 0x07 tag (.refusedState 0 0) s t
      else if s.mdu.mode = .boring then answeredQuietly 0x07 tag .accepted [u1 2] s t ∧ onlyChanges [.hlc] s t
      else
        answered 0x07 tag .accepted [u1 2] s t ∧ t.mdu.mode = .boring ∧ t.mdu.previous = s.mdu.mode
        ∧ t.mdu.permitted = holdsEmpty s.mdu.holds ∧ t.mdu.holds = s.mdu.holds ∧ t.mdu.halts = s.mdu.halts
        ∧ (∀ i : Fin 16, (t.pair i).state = .thrusting → s.PairsCommanded → (t.pair i).commanded =
            if t.mdu.permitted then compensated s (groupOf i) else s.profile.holdPressure)
        ∧ onlyChanges [.thu, .chu, .fcu, .gru, .mdu, .hlc] s t

/-- HOLD posts or withdraws HOST_HOLD in every mode, and answers with the set and the permission after it; at a change
one notice is raised and the pairs are commanded anew. HOST_HOLD is not posted again on entry to READY from STANDBY
(R164, R166). The codes of on, of off and of the permission are those of log 13. -/
def Obligations.HoldRequestPostsHostHold : Prop :=
  (∀ (tag : Byte) (w : Nat) (isOn : Bool) (s : State), switchOfCode w = some isOn → takes (.hold tag w) s →
    s.mdu.Lawful → ∃ t, exec (.hold tag w) s = .next t
      ∧ t.mdu = s.mdu.withHold .hostHold isOn ∧ commandsOnly s.thu t.thu ∧ onlyChanges [.thu, .mdu, .hlc] s t
      ∧ if s.mdu.holds[HoldReason.hostHold.index] = isOn then
          answeredQuietly 0x08 tag .accepted
            [.raw [holdsByte t.mdu.holds], u1 (permissionCode t.mdu.permitted)] s t
        else
          answeredWithNotice 0x08 tag .accepted
            [.raw [holdsByte t.mdu.holds], u1 (permissionCode t.mdu.permitted)]
            (noticeFrame .holdChanged (holdChangedFields .hostHold t.mdu.holds t.mdu.permitted)) s t)
  ∧ ∀ (tag : Byte) (s t : State), takes (.setMode tag 1) s → s.mdu.mode = .standby →
      s.mdu.holds[HoldReason.hostHold.index] = false → exec (.setMode tag 1) s = .next t →
      t.mdu.holds[HoldReason.hostHold.index] = false

/-- STOP is refused in STANDBY. In any other mode the machine is in HALTED afterwards with HOST_STOP removable in the
set, and the reply carries the mode and the set; an ACK_HALT that follows removes HOST_STOP (R167, R170). That the set
in the reply is taken after the activation of a profile pending in BORING, with a LOAD_TRIP it posts, is the model's
choice: log 5. -/
def Obligations.StopHaltsUntilAcknowledged : Prop :=
  ∀ (tag : Byte) (s : State), takes (.stop tag) s → s.mdu.Lawful → ∃ t, exec (.stop tag) s = .next t ∧
    if s.mdu.mode = .standby then refused 0x09 tag (.refusedState 0 0) s t
    else
      answered 0x09 tag .accepted [u1 t.mdu.mode.code, haltBytes t.mdu] s t
      ∧ t.mdu.mode = .halted ∧ t.mdu.haltOut = true ∧ t.mdu.permitted = false
      ∧ t.mdu.halts[HaltCause.hostStop.index] = some true
      ∧ ((s.mdu.mode = .boring → s.pfs.next = none) →
          Mdu.haltRaised .hostStop s.mdu t.mdu ∧ onlyChanges [.thu, .chu, .fcu, .gru, .bld, .mdu, .hlc] s t
          ∧ (s.mdu.mode ≠ .halted → t.chu.hostSpeed = 0 ∧ (∀ i : Fin 6, (t.line i).state ≠ .injecting)
              ∧ (s.bld.plan.active = true → t.bld.plan = .paused .halt)))
      ∧ ∀ (tag' : Byte) (u : State), takes (.ackHalt tag') t → exec (.ackHalt tag') t = .next u →
          u.mdu.halts[HaltCause.hostStop.index] = none

/-- ACK_HALT is refused outside HALTED. In HALTED the causes marked removable leave the set and the others stay with
their marks; an emptied set makes the mode READY. The reply carries the removed causes, the remaining ones and the
mode. When STALL leaves, a STALLED drive is STOPPED (R56, R171).
The layout of the reply is that of log 14. -/
def Obligations.AcknowledgeRemovesRemovableCauses : Prop :=
  ∀ (tag : Byte) (s : State), takes (.ackHalt tag) s → ∃ t, exec (.ackHalt tag) s = .next t ∧
    if s.mdu.mode ≠ .halted then refused 0x0A tag (.refusedState 0 0) s t
    else
      answered 0x0A tag .accepted
        [.raw [haltsByte (s.mdu.halts.map fun m => if m = some true then some true else none)], haltBytes t.mdu,
         u1 t.mdu.mode.code] s t
      ∧ (∀ c : HaltCause, t.mdu.halts[c.index]
          = if s.mdu.halts[c.index] = some true then none else s.mdu.halts[c.index])
      ∧ t.mdu.holds = s.mdu.holds
      ∧ ((∀ c : HaltCause, s.mdu.halts[c.index] ≠ some false) →
          t.mdu.mode = .ready ∧ t.mdu.previous = .halted ∧ t.mdu.haltOut = false)
      ∧ (∀ c : HaltCause, s.mdu.halts[c.index] = some false →
          t.mdu.mode = .halted ∧ t.mdu.haltOut = s.mdu.haltOut ∧ t.mdu.previous = s.mdu.previous)
      ∧ (s.mdu.halts[HaltCause.stall.index] = some true → s.chu.drive = .stalled → t.chu.drive = .stopped)
      ∧ (haltMember t.mdu .loadTrip = false → t.chu.trip = false)
      ∧ onlyChanges [.thu, .chu, .fcu, .gru, .mdu, .hlc] s t

/-- The standstill timer runs out: BORING becomes STANDSTILL, the timer is stopped, advance is withheld whatever the
holds, no speed is asked of the drive, and both sets stay. A pending profile is activated (R45, R157, R165, R173).
The clock is the model's own: log 3. -/
def Obligations.StandstillTimerEndsBoring : Prop :=
  ∀ (s : State) (e : Nat), s.mdu.standstill = .running e → s.mdu.Lawful →
    ∃ t, exec .standstillTimerExpiry s = .next t ∧ t.now = max s.now e
      ∧ t.mdu.permitted = false ∧ t.mdu.advPermit = false ∧ t.mdu.standstill = .stopped ∧ t.chu.hostSpeed = 0
      ∧ (∀ p, s.pfs.next = some p → t.pfs.active = p ∧ t.pfs.next = none)
      ∧ (s.pfs.next = none → t.mdu.mode = .standstill ∧ t.mdu.previous = .boring ∧ t.mdu.holds = s.mdu.holds
          ∧ t.mdu.halts = s.mdu.halts ∧ onlyChanges [.thu, .chu, .fcu, .mdu, .hlc, .clock] s t ∧ linkNotices s t)

/-! ## Ring records -/

/-- The closed record is the log's newest entry; at 32 entries the oldest is dropped first and the log holds 32 again;
a flag, an accrual or a balance for a number that no entry carries is discarded (R145). -/
def Obligations.ClosedRingGoesToTheLog : Prop :=
  (∀ s : State, ∃ e, (closeRing s).rgu.log
        = (if s.rgu.log.length < 32 then s.rgu.log else s.rgu.log.drop 1) ++ [e]
      ∧ e.record = { s.rgu.current with stroke := s.adv.stroke, measured := none } ∧ e.strokeAtClose = s.adv.stroke
      ∧ e.settled = none ∧ (s.rgu.log.length = 32 → (closeRing s).rgu.log.length = 32)
      ∧ (s.rgu.log.length < 32 → (closeRing s).rgu.log.length = s.rgu.log.length + 1))
  ∧ ∀ (s : State) (n : Nat), n ≠ s.rgu.current.number → newestEntry n s.rgu.log = none →
      (∀ f, onRing n f s = s) ∧ (∀ f, onEntry n f s = s) ∧ ∀ b, settleRing n b s = s

/-- A settled balance is entered once, in the newest log entry that carries the ring's number, with one RING_SETTLED
notice; where that entry holds one already, or there is none, nothing changes. The open record never takes one
(R146). -/
def Obligations.BalanceIsSettledOnce : Prop :=
  ∀ (n : Nat) (b : Balance) (s : State),
    match newestEntry n s.rgu.log with
    | none => settleRing n b s = s
    | some e =>
      if e.settled.isSome then settleRing n b s = s
      else
        newestEntry n (settleRing n b s).rgu.log = some { e with settled := some b }
        ∧ (settleRing n b s).rgu.log.length = s.rgu.log.length
        ∧ (∀ k : Nat, (settleRing n b s).rgu.log[k]? = s.rgu.log[k]?
            ∨ s.rgu.log[k]? = some e ∧ (settleRing n b s).rgu.log[k]? = some { e with settled := some b })
        ∧ (settleRing n b s).rgu.current = s.rgu.current
        ∧ (settleRing n b s).hlc
            = (notify .ringSettled [u2 n, u4 b.expected, u4 b.measured, opt 2 b.ratio] s).hlc
        ∧ onlyChanges [.rgu, .hlc] s (settleRing n b s)
        ∧ ∀ b', settleRing n b' (settleRing n b s) = settleRing n b s

/-- SET_RING_NUMBER is refused for 0, outside STANDBY, and for a number in the log. Otherwise the open ring is reopened
empty under the number, S and P are 0, STROKE_LIMIT is withdrawn and the lines' figures begin anew; the log, FCU's
queue and balance and what the lines owe are kept (R12, R108, R148, R195).
The order of the checks is that of log 24. -/
def Obligations.SetRingNumberReopens : Prop :=
  ∀ (tag : Byte) (n : Nat) (s : State), takes (.setRingNumber tag n) s → s.mdu.Lawful →
    ∃ t, exec (.setRingNumber tag n) s = .next t ∧
      if n = 0 ∨ 65535 < n then refused 0x19 tag (.refusedRange 1 0) s t
      else if s.mdu.mode ≠ .standby then refused 0x19 tag (.refusedState 0 0) s t
      else if newestEntry n s.rgu.log ≠ none then refused 0x19 tag (.refusedRange 1 3) s t
      else
        answered 0x19 tag .accepted [u2 n] s t ∧ receiverSame s t
        ∧ t.rgu = { s.rgu with current := RingRecord.opened n 0 s.pfs.active }
        ∧ t.adv = { s.adv with stroke := 0, acc := 0 }
        ∧ t.gru.figuresRing = n
        ∧ (∀ i : Fin 6, t.line i = { s.line i with accrued := 0, delivered := 0 })
        ∧ { t.gru with lines := s.gru.lines, figuresRing := s.gru.figuresRing } = s.gru
        ∧ t.mdu = s.mdu.withHold .strokeLimit false
        ∧ (s.mdu.holds[HoldReason.strokeLimit.index] = false → t.hlc.notices = s.hlc.notices)
        ∧ onlyChanges [.adv, .gru, .rgu, .mdu, .hlc] s t

/-! ## Station link -/

/-- The visits of the station link. At the end of the command frame the transmitter is released and the reply window
runs, with a pending length put in force. At its expiry the visit is a miss, or is not recorded for a station disabled
during it; three misses make an ONLINE station LOST, with the consequence of its role at its owner; and the next visit
begins with the command frame of the station as it then stands, or none does while no station is enabled. A hit makes
its station ONLINE with no misses; one from a station not ONLINE is noticed, and DRIVE_LOST is withdrawn for the DRIVE
station before the report is handed on (R57, R71, R99, R130, R169, R177 to R181, R183, R184, R186, R190).
The clock is the model's own: log 3. The code of the cause in the notice is that of log 13. -/
def Obligations.StationVisits : Prop :=
  (∀ s : State, s.slc.phase = .sending → ∃ t, exec .commandFrameSent s = .next t
    ∧ t.slc = { s.slc with phase := .listening, txEnable := false, window := s.slc.nextWindow.getD s.slc.window,
                           nextWindow := none,
                           windowTimer := .running (s.now + s.slc.nextWindow.getD s.slc.window) }
    ∧ onlyChanges [.slc, .hlc] s t ∧ linkQuiet s t)
  ∧ (∀ (s : State) (e : Nat) (i : Fin 13), s.slc.windowTimer = .running e → i = visited s.slc →
    ∃ t, exec .replyWindowExpiry s = .next t ∧ t.now = max s.now e
      ∧ (∀ j : Fin 13, j ≠ i → t.station j = s.station j) ∧ (t.station i).enabled = (s.station i).enabled
      ∧ (match nextStation s.slc (fun a => decide (s.slc.position < a)) with
          | some j => t.slc.phase = .sending ∧ t.slc.position = addressOf j ∧ t.slc.txEnable = true
              ∧ t.slc.frame = commandFrame t j ∧ t.slc.reply = [] ∧ t.slc.unrecorded = false
          | none => t.slc.phase = .none ∧ t.slc.position = s.slc.position ∧ t.slc.txEnable = false)
      ∧ t.slc.windowTimer = .stopped ∧ t.slc.window = s.slc.window ∧ t.slc.nextWindow = s.slc.nextWindow
      ∧ onlyChanges [.adv, .thu, .chu, .fcu, .gru, .bld, .rgu, .pfs, .mdu, .slc, .hlc, .clock] s t
      ∧ if s.slc.unrecorded = true then
          t.station i = s.station i ∧ onlyChanges [.slc, .hlc, .clock] s t ∧ linkQuiet s t
        else
          (t.station i).misses = min 3 ((s.station i).misses + 1)
          ∧ if (s.station i).link = .online ∧ 2 ≤ (s.station i).misses then
              (t.station i).link = .lost ∧ ((s.station i).enabled = true → lossTaken (roleOf i) s t)
            else (t.station i).link = (s.station i).link ∧ onlyChanges [.slc, .hlc, .clock] s t ∧ linkQuiet s t)
  ∧ ∀ (s : State) (i : Fin 13) (r : Report), ∃ u, recordHit i r s = takeReport r u
    ∧ u.station i = { s.station i with link := .online, misses := 0 }
    ∧ (∀ j : Fin 13, j ≠ i → u.station j = s.station j) ∧ { u.slc with stations := s.slc.stations } = s.slc
    ∧ if (s.station i).link = .online then onlyChanges [.slc] s u
      else
        u.mdu = (if roleOf i = .drive then { s.mdu with halts := s.mdu.halts.set HaltCause.driveLost.index none }
          else s.mdu)
        ∧ u.hlc = (notify .stationState [u1 (addressOf i), u1 (roleOf i).code, u1 (s.station i).link.code,
            u1 LinkState.online.code, fl (s.station i).enabled, u1 StationCause.reply.code] s).hlc
        ∧ onlyChanges [.slc, .mdu, .hlc] s u

/-- A whole reply to the visit in flight, with every checked character right, is judged by its two check characters: if
they are the CRC of kind, length and payload the report that the payload spells is handed on and the station is
ONLINE with no misses, and otherwise the visit is a miss. Either way the visit ends and the next one begins. The first
characters of a reply, each of them right, are kept until the rest comes; a wrong character (of address, kind, length or
payload, or the ninth bit set after the first) makes the reply malformed, and the visit waits for its window (R177,
R178, R180, R181, R184, R189). Unused bits of a GROUT status byte are ignored, and an erector result is judged also in
WORKING: log 21. The owner takes the report before the command frame of the next visit is formed: log 4. What each
report does at its unit is said by LoadIndexAndRampStayBetween, ChamberTrimMovesSetPoint,
PairReinstateReseats, RecordSegmentAppends and GroutLineTimers. -/
def Obligations.StationReplyIsJudged : Prop :=
  (∀ (s u : State) (i : Fin 13) (payload : List Byte) (x y : Byte), s.slc.phase = .listening → s.resetHeld = false →
    s.slc.discarding = false → s.slc.reply = [] → s.slc.unrecorded = false → i = visited s.slc →
    payload.length = reportLength (roleOf i) →
    (∀ (n : Nat) (b : Byte), payload[n]? = some b → namedValue (roleOf i) n b.toNat = true) →
    u = (if [x, y] = checkBytes (reportKind (roleOf i) :: BitVec.ofNat 8 payload.length :: payload)
         then recordHit i (reportOf (roleOf i) payload) s else recordMiss i s) →
    ∃ t, exec (.stationReply (BitVec.ofNat 9 (256 + addressOf i)
            :: ((reportKind (roleOf i) :: BitVec.ofNat 8 payload.length :: payload) ++ [x, y]).map
                (BitVec.setWidth 9))) s = .next t
      ∧ (∀ p : Part, p ∉ [.slc, .hlc] → p.same u t) ∧ t.slc.stations = u.slc.stations
      ∧ ([x, y] = checkBytes (reportKind (roleOf i) :: BitVec.ofNat 8 payload.length :: payload) →
          t.station i = { s.station i with link := .online, misses := 0 })
      ∧ t.slc.window = s.slc.window ∧ t.slc.nextWindow = s.slc.nextWindow ∧ t.slc.windowTimer = .stopped
      ∧ ∀ j, nextStation s.slc (fun a => decide (s.slc.position < a)) = some j →
          t.slc.phase = .sending ∧ t.slc.position = addressOf j ∧ t.slc.frame = commandFrame t j)
  ∧ (∀ (s : State) (c : Char9) (cs : List Char9), s.slc.phase = .listening → s.resetHeld = false →
    s.slc.discarding = false → s.slc.reply = [] → c.toNat ≠ 256 + addressOf (visited s.slc) →
    ∃ t, exec (.stationReply (c :: cs)) s = .next t ∧ t.slc = { s.slc with discarding := true }
      ∧ onlyChanges [.slc, .hlc] s t ∧ linkQuiet s t)
  ∧ ∀ (s : State) (i : Fin 13) (good : List Char9), s.slc.phase = .listening → s.resetHeld = false →
    s.slc.discarding = false → s.slc.reply = [] → i = visited s.slc → good.length < replyLength i →
    (∀ (n : Nat) (c : Char9), good[n]? = some c → charOk i n c = true) →
    (∃ t, exec (.stationReply good) s = .next t ∧ t.slc = { s.slc with reply := good }
      ∧ onlyChanges [.slc, .hlc] s t ∧ linkQuiet s t)
    ∧ ∀ (c : Char9) (cs : List Char9), charOk i good.length c = false →
      ∃ t, exec (.stationReply (good ++ c :: cs)) s = .next t ∧ t.slc = { s.slc with discarding := true }
        ∧ onlyChanges [.slc, .hlc] s t ∧ linkQuiet s t

/-- STATION_ENABLE is refused for an address that is none, a value that is neither on nor off, and the disabling of a
critical station outside STANDBY. Otherwise it acts by the table of R185, and answers with the flag and the link state;
a request that finds the flag as it asks changes nothing. The disabling of an ONLINE station has the consequence of its
role at its owner. With a visit in flight the visit goes on, not to be recorded if its own station is disabled; with
none, a station turned on restarts the round at the lowest enabled address at or above the position, or at the lowest
(R57, R71, R99, R130, R179, R183, R185, R186, R190).
The codes of on, of off and of the cause are those of log 13. The disabling of any other station reaches no owner, but
that of a thrust station that is NOT_SEEN has the consequence of its role (R36) or none (R185) as a free value decides:
log 29. -/
def Obligations.StationEnableActsByTable : Prop :=
  ∀ (tag : Byte) (a w : Nat) (s : State), takes (.stationEnable tag a w) s →
    ∃ t, exec (.stationEnable tag a w) s = .next t ∧
      if 1 ≤ a ∧ a ≤ 13 then
        ∃ i : Fin 13, i.val + 1 = a ∧ match switchOfCode w with
          | none => refused 0x17 tag (.refusedRange 2 0) s t
          | some isOn =>
            if isOn = false ∧ a ≤ 7 ∧ s.mdu.mode ≠ .standby then refused 0x17 tag (.refusedState 0 0) s t
            else
              answered 0x17 tag .accepted [fl (t.station i).enabled, u1 (t.station i).link.code] s t
              ∧ (∀ j : Fin 13, j ≠ i → t.station j = s.station j)
              ∧ t.station i = (if (s.station i).enabled = isOn then s.station i
                  else { enabled := isOn, misses := 0,
                         link := if isOn = false ∧ (s.station i).link = .online then .lost
                                 else (s.station i).link })
              ∧ (if (s.station i).enabled = isOn then t.slc = s.slc ∧ onlyChanges [.hlc] s t
                    ∧ t.hlc.notices = s.hlc.notices
                 else if isOn = true ∨ (s.station i).link ≠ .online
                     ∧ ¬ ((s.station i).link = .notSeen ∧ 3 ≤ a ∧ a ≤ 6 ∧ Config.notSeenDisabledTold = true) then
                   onlyChanges [.slc, .hlc] s t
                   ∧ answeredWithNotice 0x17 tag .accepted
                      [fl (t.station i).enabled, u1 (t.station i).link.code]
                      (noticeFrame .stationState
                        [u1 a, u1 (roleOf i).code, u1 (s.station i).link.code, u1 (s.station i).link.code, fl isOn,
                         u1 (if isOn then StationCause.enable else StationCause.disable).code]) s t
                 else lossTaken (roleOf i) s t
                   ∧ onlyChanges [.adv, .thu, .chu, .fcu, .gru, .bld, .rgu, .pfs, .mdu, .slc, .hlc] s t)
              ∧ (s.slc.phase ≠ .none ∨ isOn = false →
                  t.slc = { s.slc with stations := t.slc.stations, unrecorded := s.slc.unrecorded
                    || (!isOn && (s.station i).enabled && s.slc.phase != .none && visited s.slc == i) })
              ∧ (s.slc.phase = .none → isOn = true → (s.station i).enabled = false →
                  ∃ j, nextStation t.slc (fun b => decide (s.slc.position ≤ b)) = some j ∧ t.slc.phase = .sending
                    ∧ t.slc.position = addressOf j ∧ t.slc.txEnable = true ∧ t.slc.frame = commandFrame t j)
      else refused 0x17 tag (.refusedRange 1 0) s t

/-- SET_LINK_TIMING below 2 or above 50 is refused; otherwise the length is in force at once while no visit is in
flight, and is held as the pending length otherwise, a window already running keeping the length it started with. A
pending length is in force from the start of the next LISTENING (R178, R187). By log 21, the model's choices: with no
visit in flight a pending length stays as it was, and a length set while a command frame is being sent is taken up in
the LISTENING of that same visit. -/
def Obligations.SetLinkTimingSetsWindow : Prop :=
  (∀ (tag : Byte) (w : Nat) (s : State), takes (.setLinkTiming tag w) s →
    ∃ t, exec (.setLinkTiming tag w) s = .next t ∧
      if w < 2 ∨ 50 < w then refused 0x18 tag (.refusedRange 1 0) s t
      else
        t.slc = (if s.slc.phase = .none then { s.slc with window := w } else { s.slc with nextWindow := some w })
        ∧ answeredQuietly 0x18 tag .accepted [u1 t.slc.window, opt 1 t.slc.nextWindow] s t
        ∧ onlyChanges [.slc, .hlc] s t)
  ∧ ∀ (s : State) (w : Nat), s.slc.phase = .sending → s.slc.nextWindow = some w →
    ∃ t, exec .commandFrameSent s = .next t ∧ t.slc.phase = .listening ∧ t.slc.window = w ∧ t.slc.nextWindow = none

/-! ## Host link -/

/-- The host link's own commands. A received frame leaves the receiver HUNTING with nothing partial; it is queued while
the queue holds fewer than 4, answered REFUSED_BUSY while the reply list holds fewer than 7, and discarded otherwise;
the end of a frame lets the oldest reply go out, or
else the oldest notice; the gap timer's expiry discards the partial frame; the head of the queue is answered
REFUSED_UNKNOWN or REFUSED_FORMAT. After every command the transmitter is idle only when no reply and no notice waits,
or while RESET-N is asserted (R193 to R196).
The kind of a reply to a frame of kind 0x80 or above, by addition modulo 256, is log 16, and so is that a received frame
ends whatever the receiver held; the clock is the model's own: log 3. -/
def Obligations.HostFramesComeAndGo : Prop :=
  (∀ (f : Frame) (s : State), s.resetHeld = false → ∃ t, exec (.hostFrameReceived f) s = .next t
    ∧ t.hlc.rx = .hunting ∧ t.hlc.bytes = [] ∧ t.hlc.gapTimer = .stopped
    ∧ t.hlc.inProcess = s.hlc.inProcess ∧ t.hlc.dropped = s.hlc.dropped ∧ onlyChanges [.hlc] s t
    ∧ if s.hlc.queue.length < 4 then t.hlc.queue = s.hlc.queue ++ [f] ∧ transmission t = transmission s
      else t.hlc.queue = s.hlc.queue
        ∧ if s.hlc.replies.length < 7 then
            outgoing t = outgoing s ++ [{ kind := f.kind + 0x80#8, tag := f.tag, payload := [0x12#8] }]
            ∧ t.hlc.notices = s.hlc.notices
          else transmission t = transmission s)
  ∧ (∀ s : State, s.resetHeld = false → ∃ t, exec .hostFrameSent s = .next t
    ∧ t.hlc.sending = (s.hlc.replies ++ s.hlc.notices).head?
    ∧ t.hlc.replies = s.hlc.replies.drop 1
    ∧ t.hlc.notices = (if s.hlc.replies = [] then s.hlc.notices.drop 1 else s.hlc.notices)
    ∧ receiverSame s t ∧ t.hlc.queue = s.hlc.queue ∧ t.hlc.inProcess = s.hlc.inProcess
    ∧ t.hlc.dropped = s.hlc.dropped ∧ onlyChanges [.hlc] s t)
  ∧ (∀ (s : State) (e : Nat), s.hlc.gapTimer = .running e → ∃ t, exec .gapTimerExpiry s = .next t
    ∧ t.hlc.rx = .hunting ∧ t.hlc.bytes = [] ∧ t.hlc.gapTimer = .stopped ∧ t.hlc.queue = s.hlc.queue
    ∧ transmission t = transmission s ∧ t.now = max s.now e ∧ onlyChanges [.hlc, .clock] s t)
  ∧ (∀ (s : State) (f : Frame) (fs : List Frame), canTake s = true → s.hlc.queue = f :: fs →
      requestLength f.kind.toNat = none → ∃ t, exec .unknownRequestKind s = .next t
        ∧ answeredQuietly f.kind.toNat f.tag .refusedUnknown [] s t ∧ onlyChanges [.hlc] s t)
  ∧ (∀ (s : State) (f : Frame) (fs : List Frame) (n : Nat), canTake s = true → s.hlc.queue = f :: fs →
      requestLength f.kind.toNat = some n → f.payload.length ≠ n → ∃ t, exec .requestLengthMismatch s = .next t
        ∧ answeredQuietly f.kind.toNat f.tag .refusedFormat [] s t ∧ onlyChanges [.hlc] s t)
  ∧ ∀ (c : Instr) (s t : State), exec c s = .next t → t.resetHeld = false → t.hlc.sending = none →
      t.hlc.replies = [] ∧ t.hlc.notices = []

/-- Bytes on the host link. A hunting receiver takes 0xC3 and no other byte, and a framing error discards what was
being received. The bytes of a frame of at most 200 payload bytes, received one after another, are received as that
frame if their two check bytes are the CRC of length, kind, tag and payload, and as nothing otherwise (R193).
The clock is the model's own: log 3. -/
def Obligations.HostBytesSpellFrames : Prop :=
  (∀ (b : Byte) (s : State), s.resetHeld = false → s.hlc.rx = .hunting → s.hlc.bytes = [] →
    s.hlc.gapTimer = .stopped → ∃ t, exec (.hostByteReceived b false) s = .next t
      ∧ t.hlc.queue = s.hlc.queue ∧ transmission t = transmission s ∧ onlyChanges [.hlc] s t
      ∧ if b = 0xC3#8 then t.hlc.rx = .header ∧ t.hlc.bytes = [b] ∧ t.hlc.gapTimer = .running (s.now + 10)
        else linkQuiet s t)
  ∧ (∀ (b : Byte) (s : State), s.resetHeld = false → ∃ t, exec (.hostByteReceived b true) s = .next t
      ∧ t.hlc.rx = .hunting ∧ t.hlc.bytes = [] ∧ t.hlc.gapTimer = .stopped ∧ t.hlc.queue = s.hlc.queue
      ∧ transmission t = transmission s ∧ onlyChanges [.hlc] s t)
  ∧ ∀ (f : Frame) (x y : Byte) (s : State), f.payload.length ≤ 200 → s.resetHeld = false → s.hlc.rx = .hunting →
      ([0xC3#8, BitVec.ofNat 8 f.payload.length, f.kind, f.tag] ++ f.payload ++ [x, y]).foldl
          (fun s b => receiveByte b false s) s
        = if [x, y] = checkBytes (BitVec.ofNat 8 f.payload.length :: f.kind :: f.tag :: f.payload)
          then receiveFrame f (hunt s) else hunt s

/-- RESTART is answered first; the receive queue is discarded and every unit restarts: STANDBY with both sets emptied
(GROUT_NONE again while no line is in service), the plan IDLE with an operation in flight made the orphan, the drive
STOPPED, the screw at 0, every arc reseating for no requester, no line injecting, and the round begun again. ADV, the
ring records and the profiles are kept. This is said with no profile pending in BORING (R41, R60, R84, R111, R136,
R176, R192, R199). That THRUST_MIN is not in the set right after the restart, although pairs go to RESEATING, is log
23; that the new visit begins at once, also while a command frame is being sent, is log 21. -/
def Obligations.RestartReachesEveryUnit : Prop :=
  ∀ (tag : Byte) (s : State), takes (.restart tag) s → (s.mdu.mode = .boring → s.pfs.next = none) →
    ∃ t, exec (.restart tag) s = .next t
      ∧ outgoing t = outgoing s ++ [{ kind := 0x9D#8, tag := tag, payload := [0x00#8] }]
      ∧ t.hlc.queue = [] ∧ t.hlc.inProcess = false ∧ receiverSame s t
      ∧ t.mdu.mode = .standby ∧ (∀ c : HaltCause, t.mdu.halts[c.index] = none) ∧ t.mdu.haltOut = false
      ∧ t.mdu.permitted = false
      ∧ (∀ r : HoldReason, t.mdu.holds[r.index] = (decide (r = .groutNone) && noneServing t.gru))
      ∧ t.bld = { s.bld with
          plan := .idle, slot := 0, flight := .none, stepTimer := .stopped, stack := [], base := 0, outcome := 0,
          arcs := [], lastPlaced := none, background := none, command := .hold, inbox := [],
          orphan := match s.bld.flight with
            | .erector op => some op
            | _ => s.bld.orphan }
      ∧ t.chu.drive = .stopped ∧ t.chu.hostSpeed = 0 ∧ t.chu.applied = 0 ∧ t.chu.stallTimer = .stopped
      ∧ t.fcu = { s.fcu with screw := 0, gateOpen := false, regulator := .off }
      ∧ t.thu.waiting = none ∧ (∀ a ∈ t.thu.arcs, a.byBld = false ∧ a.phase = .reseating)
      ∧ t.thu.setpoints = s.thu.setpoints ∧ (∀ i : Fin 6, (t.line i).state ≠ .injecting)
      ∧ t.slc.stations = s.slc.stations ∧ t.slc.window = s.slc.nextWindow.getD s.slc.window
      ∧ t.slc.nextWindow = none
      ∧ (∀ j, nextStation s.slc (fun _ => true) = some j →
          t.slc.phase = .sending ∧ t.slc.position = addressOf j ∧ t.slc.frame = commandFrame t j)
      ∧ onlyChanges [.thu, .chu, .fcu, .gru, .bld, .mdu, .slc, .hlc] s t

/-! ## Headlines: the laws that every step keeps, and the encoding of requests -/

/-- Every step keeps the law of modes: ADV-PERMIT and the permission exactly in BORING with no hold, HALT-OUT exactly in
HALTED, no halt cause outside HALTED, the standstill timer only under its conditions, a profile pending in BORING
alone; and MDU stays told whether the drive is STOPPED and whether the plan is busy (R45, R113, R157, R165, R167,
R172). -/
def Obligations.StepKeepsModeLaw : Prop :=
  ∀ s t : State, s.ModeLaw → s.Told → step s = .next t → t.ModeLaw ∧ t.Told

/-- Every step keeps every queue, list and stack within its places (R28, R74, R124, R141, R145, R194, R195, R197). -/
def Obligations.StepKeepsListsBounded : Prop :=
  ∀ s t : State, s.Bounded → step s = .next t → t.Bounded

/-- Every step keeps every THRUSTING pair commanded its compensated pressure while advance is permitted, and
hold_pressure otherwise (R24, R25). -/
def Obligations.StepKeepsPairsCommanded : Prop :=
  ∀ s t : State, s.PairsCommanded → step s = .next t → t.PairsCommanded

/-- Every step keeps the screw within its cap, at 0 under the under-support condition, in its states QUALIFYING and
POSTED and in STANDBY, and the gate open exactly while it turns; the under-support state agrees with the condition,
but where a free value has it stay while the BULKHEAD station is not ONLINE: log 28 (R65, R67, R70, R72). -/
def Obligations.StepKeepsScrewLaw : Prop :=
  ∀ s t : State, s.ScrewLaw → step s = .next t → t.ScrewLaw

/-- Every step keeps the step accumulator below the quantum in force and the advance registers in range (R2, R4 to R9,
R16). -/
def Obligations.StepKeepsAdvanceLaw : Prop :=
  ∀ s t : State, s.AdvanceLaw → step s = .next t → t.AdvanceLaw

/-- Every step keeps the applied target and the torque ceiling those of the host target, the zone and the settings in
force, and no speed asked for outside BORING (R44, R45, R50, R52). -/
def Obligations.StepKeepsCutterLaw : Prop :=
  ∀ s t : State, s.CutterLaw → step s = .next t → t.CutterLaw

/-- Every step keeps the effective weights those of R103, the pool for a time without lines in service, and each line
timer to its state (R101, R103, R104, section 5.1). -/
def Obligations.StepKeepsGroutLaw : Prop :=
  ∀ s t : State, s.GroutLaw → step s = .next t → t.GroutLaw

/-- Every step keeps the segment list in order with the KEY last, and a plan active only outside STANDBY and before
build_done (R112 to R115, R119, R140, R142). -/
def Obligations.StepKeepsBuildLaw : Prop :=
  ∀ s t : State, s.BuildLaw → step s = .next t → t.BuildLaw

/-- Every step keeps the laws of both links: the transmitter enable in SENDING alone, the window in LISTENING alone, no
ONLINE station with three misses, the host receiver's bytes fitting its state, no request left in process (R177, R178,
R181, R183, R187, R193, R194). -/
def Obligations.StepKeepsLinkLaws : Prop :=
  ∀ s t : State, s.StationLinkLaw → s.HostLinkLaw → step s = .next t → t.StationLinkLaw ∧ t.HostLinkLaw

/-- Every request command with operands that its fields can carry is spelt by a frame that HLC reads back as that
command, of the fixed length of its kind (R193, R194, R201, section 11.4).
The action codes of GROUT_LINE are those of log 13. -/
def Obligations.RequestFramesReadBack : Prop :=
  ∀ (i : Instr) (f : Frame), i.wellFormed = true → frameOf i = some f →
    requestOf f = some i ∧ requestLength f.kind.toNat = some f.payload.length ∧ f.payload.length ≤ 200

end
end

