-- ==== Sys2Proof/Laws/State.lean ====
section
/-! SUPPORT. One lemma per field for each update of one block's part of the state, so that no proof unfolds a
record update. -/

set_option Elab.async false

namespace Sys2Proof.Machine

variable (s : State)

section
variable (f : Adv → Adv)
@[simp] theorem State.onAdv_adv : (s.onAdv f).adv = f s.adv := rfl
@[simp] theorem State.onAdv_thu : (s.onAdv f).thu = s.thu := rfl
@[simp] theorem State.onAdv_chu : (s.onAdv f).chu = s.chu := rfl
@[simp] theorem State.onAdv_fcu : (s.onAdv f).fcu = s.fcu := rfl
@[simp] theorem State.onAdv_gru : (s.onAdv f).gru = s.gru := rfl
@[simp] theorem State.onAdv_bld : (s.onAdv f).bld = s.bld := rfl
@[simp] theorem State.onAdv_rgu : (s.onAdv f).rgu = s.rgu := rfl
@[simp] theorem State.onAdv_pfs : (s.onAdv f).pfs = s.pfs := rfl
@[simp] theorem State.onAdv_mdu : (s.onAdv f).mdu = s.mdu := rfl
@[simp] theorem State.onAdv_slc : (s.onAdv f).slc = s.slc := rfl
@[simp] theorem State.onAdv_hlc : (s.onAdv f).hlc = s.hlc := rfl
@[simp] theorem State.onAdv_resetHeld : (s.onAdv f).resetHeld = s.resetHeld := rfl
@[simp] theorem State.onAdv_now : (s.onAdv f).now = s.now := rfl
@[simp] theorem State.onAdv_pending : (s.onAdv f).pending = s.pending := rfl
end

section
variable (f : Thu → Thu)
@[simp] theorem State.onThu_adv : (s.onThu f).adv = s.adv := rfl
@[simp] theorem State.onThu_thu : (s.onThu f).thu = f s.thu := rfl
@[simp] theorem State.onThu_chu : (s.onThu f).chu = s.chu := rfl
@[simp] theorem State.onThu_fcu : (s.onThu f).fcu = s.fcu := rfl
@[simp] theorem State.onThu_gru : (s.onThu f).gru = s.gru := rfl
@[simp] theorem State.onThu_bld : (s.onThu f).bld = s.bld := rfl
@[simp] theorem State.onThu_rgu : (s.onThu f).rgu = s.rgu := rfl
@[simp] theorem State.onThu_pfs : (s.onThu f).pfs = s.pfs := rfl
@[simp] theorem State.onThu_mdu : (s.onThu f).mdu = s.mdu := rfl
@[simp] theorem State.onThu_slc : (s.onThu f).slc = s.slc := rfl
@[simp] theorem State.onThu_hlc : (s.onThu f).hlc = s.hlc := rfl
@[simp] theorem State.onThu_resetHeld : (s.onThu f).resetHeld = s.resetHeld := rfl
@[simp] theorem State.onThu_now : (s.onThu f).now = s.now := rfl
@[simp] theorem State.onThu_pending : (s.onThu f).pending = s.pending := rfl
end

section
variable (f : Chu → Chu)
@[simp] theorem State.onChu_adv : (s.onChu f).adv = s.adv := rfl
@[simp] theorem State.onChu_thu : (s.onChu f).thu = s.thu := rfl
@[simp] theorem State.onChu_chu : (s.onChu f).chu = f s.chu := rfl
@[simp] theorem State.onChu_fcu : (s.onChu f).fcu = s.fcu := rfl
@[simp] theorem State.onChu_gru : (s.onChu f).gru = s.gru := rfl
@[simp] theorem State.onChu_bld : (s.onChu f).bld = s.bld := rfl
@[simp] theorem State.onChu_rgu : (s.onChu f).rgu = s.rgu := rfl
@[simp] theorem State.onChu_pfs : (s.onChu f).pfs = s.pfs := rfl
@[simp] theorem State.onChu_mdu : (s.onChu f).mdu = s.mdu := rfl
@[simp] theorem State.onChu_slc : (s.onChu f).slc = s.slc := rfl
@[simp] theorem State.onChu_hlc : (s.onChu f).hlc = s.hlc := rfl
@[simp] theorem State.onChu_resetHeld : (s.onChu f).resetHeld = s.resetHeld := rfl
@[simp] theorem State.onChu_now : (s.onChu f).now = s.now := rfl
@[simp] theorem State.onChu_pending : (s.onChu f).pending = s.pending := rfl
end

section
variable (f : Fcu → Fcu)
@[simp] theorem State.onFcu_adv : (s.onFcu f).adv = s.adv := rfl
@[simp] theorem State.onFcu_thu : (s.onFcu f).thu = s.thu := rfl
@[simp] theorem State.onFcu_chu : (s.onFcu f).chu = s.chu := rfl
@[simp] theorem State.onFcu_fcu : (s.onFcu f).fcu = f s.fcu := rfl
@[simp] theorem State.onFcu_gru : (s.onFcu f).gru = s.gru := rfl
@[simp] theorem State.onFcu_bld : (s.onFcu f).bld = s.bld := rfl
@[simp] theorem State.onFcu_rgu : (s.onFcu f).rgu = s.rgu := rfl
@[simp] theorem State.onFcu_pfs : (s.onFcu f).pfs = s.pfs := rfl
@[simp] theorem State.onFcu_mdu : (s.onFcu f).mdu = s.mdu := rfl
@[simp] theorem State.onFcu_slc : (s.onFcu f).slc = s.slc := rfl
@[simp] theorem State.onFcu_hlc : (s.onFcu f).hlc = s.hlc := rfl
@[simp] theorem State.onFcu_resetHeld : (s.onFcu f).resetHeld = s.resetHeld := rfl
@[simp] theorem State.onFcu_now : (s.onFcu f).now = s.now := rfl
@[simp] theorem State.onFcu_pending : (s.onFcu f).pending = s.pending := rfl
end

section
variable (f : Gru → Gru)
@[simp] theorem State.onGru_adv : (s.onGru f).adv = s.adv := rfl
@[simp] theorem State.onGru_thu : (s.onGru f).thu = s.thu := rfl
@[simp] theorem State.onGru_chu : (s.onGru f).chu = s.chu := rfl
@[simp] theorem State.onGru_fcu : (s.onGru f).fcu = s.fcu := rfl
@[simp] theorem State.onGru_gru : (s.onGru f).gru = f s.gru := rfl
@[simp] theorem State.onGru_bld : (s.onGru f).bld = s.bld := rfl
@[simp] theorem State.onGru_rgu : (s.onGru f).rgu = s.rgu := rfl
@[simp] theorem State.onGru_pfs : (s.onGru f).pfs = s.pfs := rfl
@[simp] theorem State.onGru_mdu : (s.onGru f).mdu = s.mdu := rfl
@[simp] theorem State.onGru_slc : (s.onGru f).slc = s.slc := rfl
@[simp] theorem State.onGru_hlc : (s.onGru f).hlc = s.hlc := rfl
@[simp] theorem State.onGru_resetHeld : (s.onGru f).resetHeld = s.resetHeld := rfl
@[simp] theorem State.onGru_now : (s.onGru f).now = s.now := rfl
@[simp] theorem State.onGru_pending : (s.onGru f).pending = s.pending := rfl
end

section
variable (f : Bld → Bld)
@[simp] theorem State.onBld_adv : (s.onBld f).adv = s.adv := rfl
@[simp] theorem State.onBld_thu : (s.onBld f).thu = s.thu := rfl
@[simp] theorem State.onBld_chu : (s.onBld f).chu = s.chu := rfl
@[simp] theorem State.onBld_fcu : (s.onBld f).fcu = s.fcu := rfl
@[simp] theorem State.onBld_gru : (s.onBld f).gru = s.gru := rfl
@[simp] theorem State.onBld_bld : (s.onBld f).bld = f s.bld := rfl
@[simp] theorem State.onBld_rgu : (s.onBld f).rgu = s.rgu := rfl
@[simp] theorem State.onBld_pfs : (s.onBld f).pfs = s.pfs := rfl
@[simp] theorem State.onBld_mdu : (s.onBld f).mdu = s.mdu := rfl
@[simp] theorem State.onBld_slc : (s.onBld f).slc = s.slc := rfl
@[simp] theorem State.onBld_hlc : (s.onBld f).hlc = s.hlc := rfl
@[simp] theorem State.onBld_resetHeld : (s.onBld f).resetHeld = s.resetHeld := rfl
@[simp] theorem State.onBld_now : (s.onBld f).now = s.now := rfl
@[simp] theorem State.onBld_pending : (s.onBld f).pending = s.pending := rfl
end

section
variable (f : Rgu → Rgu)
@[simp] theorem State.onRgu_adv : (s.onRgu f).adv = s.adv := rfl
@[simp] theorem State.onRgu_thu : (s.onRgu f).thu = s.thu := rfl
@[simp] theorem State.onRgu_chu : (s.onRgu f).chu = s.chu := rfl
@[simp] theorem State.onRgu_fcu : (s.onRgu f).fcu = s.fcu := rfl
@[simp] theorem State.onRgu_gru : (s.onRgu f).gru = s.gru := rfl
@[simp] theorem State.onRgu_bld : (s.onRgu f).bld = s.bld := rfl
@[simp] theorem State.onRgu_rgu : (s.onRgu f).rgu = f s.rgu := rfl
@[simp] theorem State.onRgu_pfs : (s.onRgu f).pfs = s.pfs := rfl
@[simp] theorem State.onRgu_mdu : (s.onRgu f).mdu = s.mdu := rfl
@[simp] theorem State.onRgu_slc : (s.onRgu f).slc = s.slc := rfl
@[simp] theorem State.onRgu_hlc : (s.onRgu f).hlc = s.hlc := rfl
@[simp] theorem State.onRgu_resetHeld : (s.onRgu f).resetHeld = s.resetHeld := rfl
@[simp] theorem State.onRgu_now : (s.onRgu f).now = s.now := rfl
@[simp] theorem State.onRgu_pending : (s.onRgu f).pending = s.pending := rfl
end

section
variable (f : Pfs → Pfs)
@[simp] theorem State.onPfs_adv : (s.onPfs f).adv = s.adv := rfl
@[simp] theorem State.onPfs_thu : (s.onPfs f).thu = s.thu := rfl
@[simp] theorem State.onPfs_chu : (s.onPfs f).chu = s.chu := rfl
@[simp] theorem State.onPfs_fcu : (s.onPfs f).fcu = s.fcu := rfl
@[simp] theorem State.onPfs_gru : (s.onPfs f).gru = s.gru := rfl
@[simp] theorem State.onPfs_bld : (s.onPfs f).bld = s.bld := rfl
@[simp] theorem State.onPfs_rgu : (s.onPfs f).rgu = s.rgu := rfl
@[simp] theorem State.onPfs_pfs : (s.onPfs f).pfs = f s.pfs := rfl
@[simp] theorem State.onPfs_mdu : (s.onPfs f).mdu = s.mdu := rfl
@[simp] theorem State.onPfs_slc : (s.onPfs f).slc = s.slc := rfl
@[simp] theorem State.onPfs_hlc : (s.onPfs f).hlc = s.hlc := rfl
@[simp] theorem State.onPfs_resetHeld : (s.onPfs f).resetHeld = s.resetHeld := rfl
@[simp] theorem State.onPfs_now : (s.onPfs f).now = s.now := rfl
@[simp] theorem State.onPfs_pending : (s.onPfs f).pending = s.pending := rfl
end

section
variable (f : Mdu → Mdu)
@[simp] theorem State.onMdu_adv : (s.onMdu f).adv = s.adv := rfl
@[simp] theorem State.onMdu_thu : (s.onMdu f).thu = s.thu := rfl
@[simp] theorem State.onMdu_chu : (s.onMdu f).chu = s.chu := rfl
@[simp] theorem State.onMdu_fcu : (s.onMdu f).fcu = s.fcu := rfl
@[simp] theorem State.onMdu_gru : (s.onMdu f).gru = s.gru := rfl
@[simp] theorem State.onMdu_bld : (s.onMdu f).bld = s.bld := rfl
@[simp] theorem State.onMdu_rgu : (s.onMdu f).rgu = s.rgu := rfl
@[simp] theorem State.onMdu_pfs : (s.onMdu f).pfs = s.pfs := rfl
@[simp] theorem State.onMdu_mdu : (s.onMdu f).mdu = f s.mdu := rfl
@[simp] theorem State.onMdu_slc : (s.onMdu f).slc = s.slc := rfl
@[simp] theorem State.onMdu_hlc : (s.onMdu f).hlc = s.hlc := rfl
@[simp] theorem State.onMdu_resetHeld : (s.onMdu f).resetHeld = s.resetHeld := rfl
@[simp] theorem State.onMdu_now : (s.onMdu f).now = s.now := rfl
@[simp] theorem State.onMdu_pending : (s.onMdu f).pending = s.pending := rfl
end

section
variable (f : Slc → Slc)
@[simp] theorem State.onSlc_adv : (s.onSlc f).adv = s.adv := rfl
@[simp] theorem State.onSlc_thu : (s.onSlc f).thu = s.thu := rfl
@[simp] theorem State.onSlc_chu : (s.onSlc f).chu = s.chu := rfl
@[simp] theorem State.onSlc_fcu : (s.onSlc f).fcu = s.fcu := rfl
@[simp] theorem State.onSlc_gru : (s.onSlc f).gru = s.gru := rfl
@[simp] theorem State.onSlc_bld : (s.onSlc f).bld = s.bld := rfl
@[simp] theorem State.onSlc_rgu : (s.onSlc f).rgu = s.rgu := rfl
@[simp] theorem State.onSlc_pfs : (s.onSlc f).pfs = s.pfs := rfl
@[simp] theorem State.onSlc_mdu : (s.onSlc f).mdu = s.mdu := rfl
@[simp] theorem State.onSlc_slc : (s.onSlc f).slc = f s.slc := rfl
@[simp] theorem State.onSlc_hlc : (s.onSlc f).hlc = s.hlc := rfl
@[simp] theorem State.onSlc_resetHeld : (s.onSlc f).resetHeld = s.resetHeld := rfl
@[simp] theorem State.onSlc_now : (s.onSlc f).now = s.now := rfl
@[simp] theorem State.onSlc_pending : (s.onSlc f).pending = s.pending := rfl
end

section
variable (f : Hlc → Hlc)
@[simp] theorem State.onHlc_adv : (s.onHlc f).adv = s.adv := rfl
@[simp] theorem State.onHlc_thu : (s.onHlc f).thu = s.thu := rfl
@[simp] theorem State.onHlc_chu : (s.onHlc f).chu = s.chu := rfl
@[simp] theorem State.onHlc_fcu : (s.onHlc f).fcu = s.fcu := rfl
@[simp] theorem State.onHlc_gru : (s.onHlc f).gru = s.gru := rfl
@[simp] theorem State.onHlc_bld : (s.onHlc f).bld = s.bld := rfl
@[simp] theorem State.onHlc_rgu : (s.onHlc f).rgu = s.rgu := rfl
@[simp] theorem State.onHlc_pfs : (s.onHlc f).pfs = s.pfs := rfl
@[simp] theorem State.onHlc_mdu : (s.onHlc f).mdu = s.mdu := rfl
@[simp] theorem State.onHlc_slc : (s.onHlc f).slc = s.slc := rfl
@[simp] theorem State.onHlc_hlc : (s.onHlc f).hlc = f s.hlc := rfl
@[simp] theorem State.onHlc_resetHeld : (s.onHlc f).resetHeld = s.resetHeld := rfl
@[simp] theorem State.onHlc_now : (s.onHlc f).now = s.now := rfl
@[simp] theorem State.onHlc_pending : (s.onHlc f).pending = s.pending := rfl
end

@[simp] theorem State.atExpiry_adv (t : Nat) : (s.atExpiry t).adv = s.adv := rfl
@[simp] theorem State.atExpiry_thu (t : Nat) : (s.atExpiry t).thu = s.thu := rfl
@[simp] theorem State.atExpiry_chu (t : Nat) : (s.atExpiry t).chu = s.chu := rfl
@[simp] theorem State.atExpiry_fcu (t : Nat) : (s.atExpiry t).fcu = s.fcu := rfl
@[simp] theorem State.atExpiry_gru (t : Nat) : (s.atExpiry t).gru = s.gru := rfl
@[simp] theorem State.atExpiry_bld (t : Nat) : (s.atExpiry t).bld = s.bld := rfl
@[simp] theorem State.atExpiry_rgu (t : Nat) : (s.atExpiry t).rgu = s.rgu := rfl
@[simp] theorem State.atExpiry_pfs (t : Nat) : (s.atExpiry t).pfs = s.pfs := rfl
@[simp] theorem State.atExpiry_mdu (t : Nat) : (s.atExpiry t).mdu = s.mdu := rfl
@[simp] theorem State.atExpiry_slc (t : Nat) : (s.atExpiry t).slc = s.slc := rfl
@[simp] theorem State.atExpiry_hlc (t : Nat) : (s.atExpiry t).hlc = s.hlc := rfl
@[simp] theorem State.atExpiry_resetHeld (t : Nat) : (s.atExpiry t).resetHeld = s.resetHeld := rfl
@[simp] theorem State.atExpiry_now (t : Nat) : (s.atExpiry t).now = max s.now t := rfl
@[simp] theorem State.atExpiry_pending (t : Nat) : (s.atExpiry t).pending = s.pending := rfl

/-- The profile in force depends on the Profile Store alone. -/
theorem State.profile_eq (s t : State) (h : t.pfs = s.pfs) : t.profile = s.profile := by
  simp [State.profile, h]

/-- Whether a station is ONLINE depends on the Station Link Controller alone. -/
theorem State.online_eq (s t : State) (h : t.slc = s.slc) (a : Nat) : t.online a = s.online a := by
  simp [State.online, h]

end Sys2Proof.Machine
end

