-- ==== Sys2Proof/Laws/Frames.lean ====
section
/-! SUPPORT. What each shared operation can change: one lemma per operation, to be cited in place of its
definition. -/

set_option Elab.async false

namespace Sys2Proof.Machine

/-! ## Working with frames -/

theorem onlyChanges_refl (l : List Part) (s : State) : onlyChanges l s s := by
  intro p _; cases p <;> rfl

theorem onlyChanges_trans {l : List Part} {s t u : State} (h : onlyChanges l s t) (k : onlyChanges l t u) :
    onlyChanges l s u := by
  intro p hp
  have a := h p hp
  have b := k p hp
  cases p <;> simp_all [Part.same]

theorem onlyChanges_mono {l m : List Part} {s t : State} (h : onlyChanges l s t) (sub : ∀ p ∈ l, p ∈ m) :
    onlyChanges m s t := fun p hp => h p fun hl => hp (sub p hl)

/-- A conditional operation changes what its branches change. -/
theorem onlyChanges_ite {l : List Part} {s a b : State} {c : Prop} [Decidable c] (ha : onlyChanges l s a)
    (hb : onlyChanges l s b) : onlyChanges l s (if c then a else b) := by
  split <;> assumption

section
variable (s : State)

theorem onAdv_frame (f : Adv → Adv) : onlyChanges [.adv] s (s.onAdv f) := by
  intro p hp; cases p <;> simp_all [Part.same]
theorem onThu_frame (f : Thu → Thu) : onlyChanges [.thu] s (s.onThu f) := by
  intro p hp; cases p <;> simp_all [Part.same]
theorem onChu_frame (f : Chu → Chu) : onlyChanges [.chu] s (s.onChu f) := by
  intro p hp; cases p <;> simp_all [Part.same]
theorem onFcu_frame (f : Fcu → Fcu) : onlyChanges [.fcu] s (s.onFcu f) := by
  intro p hp; cases p <;> simp_all [Part.same]
theorem onGru_frame (f : Gru → Gru) : onlyChanges [.gru] s (s.onGru f) := by
  intro p hp; cases p <;> simp_all [Part.same]
theorem onBld_frame (f : Bld → Bld) : onlyChanges [.bld] s (s.onBld f) := by
  intro p hp; cases p <;> simp_all [Part.same]
theorem onRgu_frame (f : Rgu → Rgu) : onlyChanges [.rgu] s (s.onRgu f) := by
  intro p hp; cases p <;> simp_all [Part.same]
theorem onPfs_frame (f : Pfs → Pfs) : onlyChanges [.pfs] s (s.onPfs f) := by
  intro p hp; cases p <;> simp_all [Part.same]
theorem onMdu_frame (f : Mdu → Mdu) : onlyChanges [.mdu] s (s.onMdu f) := by
  intro p hp; cases p <;> simp_all [Part.same]
theorem onSlc_frame (f : Slc → Slc) : onlyChanges [.slc] s (s.onSlc f) := by
  intro p hp; cases p <;> simp_all [Part.same]
theorem onHlc_frame (f : Hlc → Hlc) : onlyChanges [.hlc] s (s.onHlc f) := by
  intro p hp; cases p <;> simp_all [Part.same]

/-! ## Host link -/

theorem notify_frame (k : NoticeKind) (fs : List Field) : onlyChanges [.hlc] s (notify k fs s) := onHlc_frame s _

theorem reply_frame (k : Nat) (tag : Byte) (r : Result) (d : List Field) :
    onlyChanges [.hlc] s (reply k tag r d s) := onHlc_frame s _

theorem pump_frame : onlyChanges [.hlc] s (pump s) := by
  unfold pump
  split
  · exact onlyChanges_refl _ s
  · split
    · exact onHlc_frame s _
    · exact onHlc_frame s _
    · exact onlyChanges_refl _ s
    · exact onlyChanges_refl _ s

/-- The transmitter takes nothing from what waits but its next frame: the replies that go out stay in order. -/
theorem pump_outgoing (h : s.hlc.replies ≠ [] ∨ s.hlc.sending ≠ none ∨ s.hlc.notices = []) :
    outgoing (pump s) = outgoing s := by
  unfold pump outgoing
  split
  · rfl
  · split <;> simp_all

/-! ## Holds, permission and halts -/

theorem commandPairs_frame : onlyChanges [.thu] s (commandPairs s) := onThu_frame s _

theorem decidePermission_frame : onlyChanges [.mdu, .thu] s (decidePermission s) := by
  unfold decidePermission
  split
  · exact onlyChanges_refl _ s
  · exact onlyChanges_trans (onlyChanges_mono (onMdu_frame s _) (by simp))
      (onlyChanges_mono (commandPairs_frame _) (by simp))

theorem changeHold_frame (r : HoldReason) (m : Bool) : onlyChanges [.mdu, .thu, .hlc] s (changeHold r m s) := by
  unfold changeHold
  split
  · exact onlyChanges_refl _ s
  · exact onlyChanges_trans
      (onlyChanges_trans (onlyChanges_mono (onMdu_frame s _) (by simp))
        (onlyChanges_mono (decidePermission_frame _) (by simp)))
      (onlyChanges_mono (notify_frame _ _ _) (by simp))

theorem postHold_frame (r : HoldReason) : onlyChanges [.mdu, .thu, .hlc] s (postHold r s) := changeHold_frame s r true

theorem withdrawHold_frame (r : HoldReason) : onlyChanges [.mdu, .thu, .hlc] s (withdrawHold r s) :=
  changeHold_frame s r false

theorem markHalt_frame (c : HaltCause) (m : Bool) : onlyChanges [.mdu] s (markHalt c m s) := by
  unfold markHalt
  exact onlyChanges_ite (onMdu_frame s _) (onlyChanges_refl _ s)

theorem withdrawHalt_frame (c : HaltCause) : onlyChanges [.mdu] s (withdrawHalt c s) := onMdu_frame s _

theorem evalStandstill_frame : onlyChanges [.mdu] s (evalStandstill s) := by
  unfold evalStandstill
  split
  · split
    · exact onMdu_frame s _
    · exact onlyChanges_refl _ s
  · exact onMdu_frame s _

theorem tellDrive_frame (b : Bool) : onlyChanges [.mdu] s (tellDrive b s) := by
  unfold tellDrive
  exact onlyChanges_ite (onlyChanges_refl _ s) (onlyChanges_trans (onMdu_frame s _) (evalStandstill_frame _))

theorem tellPlan_frame (b : Bool) : onlyChanges [.mdu] s (tellPlan b s) := by
  unfold tellPlan
  exact onlyChanges_ite (onlyChanges_refl _ s) (onlyChanges_trans (onMdu_frame s _) (evalStandstill_frame _))

theorem creditStandstill_frame : onlyChanges [.mdu] s (creditStandstill s) := by
  unfold creditStandstill
  split
  · exact onMdu_frame s _
  · exact onlyChanges_refl _ s

/-! ## Records of rings -/

theorem onEntry_frame (n : Nat) (f : LogEntry → LogEntry) : onlyChanges [.rgu] s (onEntry n f s) := onRgu_frame s _

theorem onRing_frame (n : Nat) (f : RingRecord → RingRecord) : onlyChanges [.rgu] s (onRing n f s) := by
  unfold onRing
  exact onlyChanges_ite (onRgu_frame s _) (onEntry_frame s _ _)

theorem onOpen_frame (f : RingRecord → RingRecord) : onlyChanges [.rgu] s (onOpen f s) := onRgu_frame s _

theorem showMeasured_frame : onlyChanges [.rgu] s (showMeasured s) := by
  unfold showMeasured
  exact onlyChanges_ite (onOpen_frame s _) (onlyChanges_refl _ s)

theorem settleRing_frame (n : Nat) (b : Balance) : onlyChanges [.rgu, .hlc] s (settleRing n b s) := by
  unfold settleRing
  split
  · exact onlyChanges_refl _ s
  · split
    · exact onlyChanges_refl _ s
    · exact onlyChanges_trans (onlyChanges_mono (onEntry_frame s _ _) (by simp))
        (onlyChanges_mono (notify_frame _ _ _) (by simp))

/-! ## Drive, screw and stations -/

theorem setDrive_frame (d : DriveState) : onlyChanges [.chu, .mdu] s (setDrive d s) := by
  unfold setDrive
  exact onlyChanges_trans (onlyChanges_mono (onChu_frame s _) (by simp))
    (onlyChanges_mono (tellDrive_frame _ _) (by simp))

theorem setScrew_frame (v : Nat) : onlyChanges [.fcu] s (setScrew v s) := onFcu_frame s _

theorem beginVisit_frame (i : Fin 13) : onlyChanges [.slc] s (beginVisit i s) := onSlc_frame s _

theorem visitNext_frame (later : Nat → Bool) : onlyChanges [.slc] s (visitNext later s) := by
  unfold visitNext
  split
  · exact beginVisit_frame s _
  · exact onSlc_frame s _

theorem endVisit_frame : onlyChanges [.slc] s (endVisit s) := by
  unfold endVisit
  exact onlyChanges_trans (onSlc_frame s _) (visitNext_frame _ _)

/-! ## The host receiver -/

theorem hunt_frame : onlyChanges [.hlc] s (hunt s) := onHlc_frame s _

theorem receiveFrame_frame (f : Frame) : onlyChanges [.hlc] s (receiveFrame f s) := onHlc_frame s _

theorem receiveByte_frame (b : Byte) (e : Bool) : onlyChanges [.hlc] s (receiveByte b e s) := by
  have trans {a b c : State} (h : onlyChanges [.hlc] a b) (k : onlyChanges [.hlc] b c) := onlyChanges_trans h k
  unfold receiveByte
  split
  · exact onlyChanges_refl _ s
  split
  · exact hunt_frame s
  split
  · exact onlyChanges_ite (trans (hunt_frame s) (onHlc_frame _ _)) (onlyChanges_refl _ s)
  · exact onlyChanges_ite (hunt_frame s) (onHlc_frame s _)
  · dsimp only
    split
    · exact onHlc_frame s _
    · split
      · exact trans (hunt_frame s) (receiveFrame_frame _ _)
      · exact hunt_frame s

end

end Sys2Proof.Machine
end

