-- ==== Sys2Proof/Laws/GroutFrames.lean ====
section
/-! SUPPORT. What each operation of the Ring and Grout Units can change: one lemma per operation, to be cited in place of
its definition. -/

set_option Elab.async false

namespace Sys2Proof.Machine

/-! ## Chaining -/

/-- An operation that changes only parts of `l` extends a frame by `l`. -/
theorem onlyChanges_then {l m : List Part} {s u : State} {f : State → State}
    (frame : ∀ v, onlyChanges m v (f v)) (h : onlyChanges l s u) (sub : ∀ p ∈ m, p ∈ l) :
    onlyChanges l s (f u) := onlyChanges_trans h (onlyChanges_mono (frame u) sub)

theorem onlyChanges_foldl {α : Type} {l : List Part} {f : State → α → State}
    (h : ∀ v a, onlyChanges l v (f v a)) (xs : List α) (s : State) : onlyChanges l s (xs.foldl f s) := by
  induction xs generalizing s with
  | nil => exact onlyChanges_refl l s
  | cons x xs ih => exact onlyChanges_trans (h s x) (ih (f s x))

/-! ## Rings -/

theorem flagOpen_frame (f : RingFlags → RingFlags) (s : State) : onlyChanges [.rgu] s (flagOpen f s) :=
  onOpen_frame s _

theorem flagRing_frame (n : Nat) (f : RingFlags → RingFlags) (s : State) : onlyChanges [.rgu] s (flagRing n f s) :=
  onRing_frame s _ _

theorem addStepTotals_frame (r : StepRecord) (s : State) : onlyChanges [.rgu] s (addStepTotals r s) := by
  unfold addStepTotals
  dsimp only
  split
  · exact onlyChanges_then (fun v => onOpen_frame v _) (onRing_frame s _ _) (by decide)
  · exact onRing_frame s _ _

theorem takeAxis_frame (p : Nat) (s : State) : onlyChanges [.rgu] s (takeAxis p s) := onOpen_frame s _

theorem appendSegment_frame (k : SegKind) (a w : Nat) (o : SegOutcome) (s : State) :
    onlyChanges [.rgu] s (appendSegment k a w o s) := onOpen_frame s _

theorem recordActivation_frame (p : ProfileName) (s : State) : onlyChanges [.rgu] s (recordActivation p s) :=
  onOpen_frame s _

theorem beginFigures_frame (n : Nat) (s : State) : onlyChanges [.gru] s (beginFigures n s) := onGru_frame s _

theorem lateAccrual_frame (r : StepRecord) (s : State) : onlyChanges [.rgu] s (lateAccrual r s) :=
  onEntry_frame s _ _

theorem closeFigures_frame (a b : Nat) (s : State) : onlyChanges [.rgu, .gru] s (closeFigures a b s) := by
  unfold closeFigures
  refine onlyChanges_ite (onlyChanges_then (flagOpen_frame _) ?_ (by decide)) ?_
  all_goals
    exact onlyChanges_then (beginFigures_frame b) (onlyChanges_mono (onEntry_frame s _ _) (by decide)) (by decide)

theorem closeRing_frame (s : State) : onlyChanges [.rgu, .adv, .mdu, .thu, .gru, .hlc] s (closeRing s) := by
  unfold closeRing
  refine onlyChanges_then (fun v => notify_frame v _ _) ?_ (by decide)
  refine onlyChanges_then (closeFigures_frame _ _) ?_ (by decide)
  refine onlyChanges_then (fun v => withdrawHold_frame v _) ?_ (by decide)
  refine onlyChanges_then (fun v => onAdv_frame v _) ?_ (by decide)
  exact onlyChanges_mono (onRgu_frame s _) (by decide)

theorem setBuildDone_frame (s : State) : onlyChanges [.rgu, .adv, .mdu, .thu, .gru, .hlc] s (setBuildDone s) := by
  unfold setBuildDone
  have h := onlyChanges_mono (m := [.rgu, .adv, .mdu, .thu, .gru, .hlc])
    (onOpen_frame s (fun r => { r with buildDone := true })) (by decide)
  exact onlyChanges_ite (onlyChanges_then closeRing_frame h (by decide)) h

theorem setStrokeDone_frame (s : State) : onlyChanges [.rgu, .adv, .mdu, .thu, .gru, .hlc] s (setStrokeDone s) := by
  unfold setStrokeDone
  have h := onlyChanges_mono (m := [.rgu, .adv, .mdu, .thu, .gru, .hlc])
    (onOpen_frame s (fun r => { r with strokeDone := true })) (by decide)
  exact onlyChanges_ite (onlyChanges_then closeRing_frame h (by decide)) h

theorem reopenRing_frame (n : Nat) (s : State) :
    onlyChanges [.rgu, .adv, .mdu, .thu, .gru, .hlc] s (reopenRing n s) := by
  unfold reopenRing
  refine onlyChanges_then (beginFigures_frame n) ?_ (by decide)
  refine onlyChanges_then (fun v => withdrawHold_frame v _) ?_ (by decide)
  refine onlyChanges_then (fun v => onAdv_frame v _) ?_ (by decide)
  exact onlyChanges_mono (onRgu_frame s _) (by decide)

/-! ## Grout -/

theorem onLine_frame (i : Fin 6) (f : Line → Line) (s : State) : onlyChanges [.gru] s (onLine i f s) :=
  onGru_frame s _

theorem recomputeWeights_frame (s : State) : onlyChanges [.gru] s (recomputeWeights s) := onGru_frame s _

theorem noticeLine_frame (i : Fin 6) (p : LineState) (s : State) : onlyChanges [.hlc] s (noticeLine i p s) :=
  notify_frame s _ _

theorem postGroutNone_frame (s : State) : onlyChanges [.gru, .mdu, .thu, .hlc] s (postGroutNone s) := by
  unfold postGroutNone
  refine onlyChanges_then (fun v => postHold_frame v _) ?_ (by decide)
  exact onlyChanges_mono (onGru_frame s _) (by decide)

theorem withdrawGroutNone_frame (s : State) : onlyChanges [.gru, .mdu, .thu, .hlc] s (withdrawGroutNone s) := by
  unfold withdrawGroutNone
  refine onlyChanges_then (fun v => withdrawHold_frame v _) ?_ (by decide)
  exact onlyChanges_mono (onGru_frame s _) (by decide)

theorem repostGroutNone_frame (s : State) : onlyChanges [.gru, .mdu, .thu, .hlc] s (repostGroutNone s) :=
  onlyChanges_ite (postGroutNone_frame s) (onlyChanges_mono (onGru_frame s _) (by decide))

theorem evalShortfall_frame (s : State) : onlyChanges [.gru, .mdu, .thu, .hlc] s (evalShortfall s) := by
  have g {v : State} {f : Gru → Gru} : onlyChanges [.gru, .mdu, .thu, .hlc] v (v.onGru f) :=
    onlyChanges_mono (onGru_frame v f) (by decide)
  unfold evalShortfall
  split
  · exact onlyChanges_ite g (onlyChanges_refl _ _)
  · exact onlyChanges_ite g (onlyChanges_refl _ _)
  · exact onlyChanges_ite (onlyChanges_then (fun v => withdrawHold_frame v _) g (by decide)) (onlyChanges_refl _ _)

theorem shortfallExpiry_frame (s : State) : onlyChanges [.gru, .mdu, .thu, .hlc, .rgu] s (shortfallExpiry s) := by
  unfold shortfallExpiry
  refine onlyChanges_then (flagOpen_frame _) ?_ (by decide)
  refine onlyChanges_then (fun v => postHold_frame v _) ?_ (by decide)
  exact onlyChanges_mono (onGru_frame s _) (by decide)

theorem startInjecting_frame (i : Fin 6) (s : State) : onlyChanges [.gru] s (startInjecting i s) :=
  onLine_frame i _ s

theorem doseTest_frame (i : Fin 6) (s : State) : onlyChanges [.gru] s (doseTest i s) :=
  onlyChanges_ite (startInjecting_frame i s) (onlyChanges_refl _ s)

theorem stopInjecting_frame (i : Fin 6) (s : State) : onlyChanges [.gru] s (stopInjecting i s) :=
  onlyChanges_ite (onLine_frame i _ s) (onlyChanges_refl _ s)

theorem paidTest_frame (i : Fin 6) (s : State) : onlyChanges [.gru] s (paidTest i s) :=
  onlyChanges_ite (stopInjecting_frame i s) (onlyChanges_refl _ s)

theorem pressureTest_frame (i : Fin 6) (p : Nat) (s : State) : onlyChanges [.gru] s (pressureTest i p s) := by
  unfold pressureTest
  split
  · exact onlyChanges_ite (onLine_frame i _ s) (onlyChanges_refl _ s)
  · exact onlyChanges_ite
      (onlyChanges_ite (onlyChanges_then (startInjecting_frame i) (onLine_frame i _ s) (by decide)) (onLine_frame i _ s))
      (onlyChanges_refl _ s)
  all_goals exact onlyChanges_refl _ s

theorem addOwed_frame (i : Fin 6) (a : Int) (s : State) : onlyChanges [.gru] s (addOwed i a s) := onLine_frame i _ s

theorem passOn_frame (i : Fin 6) (s : State) : onlyChanges [.gru] s (passOn i s) := by
  unfold passOn
  dsimp only
  split
  · refine onlyChanges_ite (onlyChanges_then (addOwed_frame _ _) (onLine_frame i _ s) (by decide)) ?_
    exact onlyChanges_then (addOwed_frame _ _)
      (onlyChanges_then (addOwed_frame _ _) (onLine_frame i _ s) (by decide)) (by decide)
  · exact onlyChanges_then (fun v => onGru_frame v _) (onLine_frame i _ s) (by decide)

theorem takeOut_frame (i : Fin 6) (st : LineState) (s : State) :
    onlyChanges [.gru, .mdu, .thu, .hlc] s (takeOut i st s) := by
  unfold takeOut
  refine onlyChanges_then (noticeLine_frame i _) ?_ (by decide)
  have h := onlyChanges_mono (m := [.gru, .mdu, .thu, .hlc])
    (onLine_frame i (fun l => { l.timersStopped with state := st }) s) (by decide)
  have k := onlyChanges_then recomputeWeights_frame (onlyChanges_then (passOn_frame i) h (by decide)) (by decide)
  exact onlyChanges_ite (onlyChanges_ite (onlyChanges_then postGroutNone_frame k (by decide)) k) h

theorem testReceivers_frame (fuel : Nat) (js : List (Fin 6)) (s : State) :
    onlyChanges [.gru, .mdu, .thu, .hlc] s (testReceivers fuel js s) := by
  induction fuel generalizing js s with
  | zero => exact onlyChanges_refl _ s
  | succ n ih =>
    cases js with
    | nil => exact onlyChanges_refl _ s
    | cons j js =>
      unfold testReceivers
      split
      · exact onlyChanges_trans (onlyChanges_mono (doseTest_frame j s) (by decide)) (ih _ _)
      · exact onlyChanges_trans (onlyChanges_mono (paidTest_frame j s) (by decide)) (ih _ _)
      · exact onlyChanges_ite (onlyChanges_trans (takeOut_frame j _ s) (ih _ _)) (ih _ _)
      all_goals exact ih _ _

theorem leaveTo_frame (i : Fin 6) (st : LineState) (s : State) :
    onlyChanges [.gru, .mdu, .thu, .hlc] s (leaveTo i st s) := by
  unfold leaveTo
  exact onlyChanges_ite (onlyChanges_trans (takeOut_frame i st s) (testReceivers_frame _ _ _)) (takeOut_frame i st s)

theorem blockLine_frame (i : Fin 6) (s : State) : onlyChanges [.gru, .mdu, .thu, .hlc] s (blockLine i s) :=
  leaveTo_frame i _ s

theorem increaseTest_frame (i : Fin 6) (s : State) : onlyChanges [.gru, .mdu, .thu, .hlc] s (increaseTest i s) :=
  onlyChanges_ite (blockLine_frame i s) (onlyChanges_mono (doseTest_frame i s) (by decide))

theorem returnLine_frame (i : Fin 6) (s : State) : onlyChanges [.gru, .mdu, .thu, .hlc] s (returnLine i s) := by
  unfold returnLine
  refine onlyChanges_then (doseTest_frame i) (onlyChanges_then (noticeLine_frame i _) ?_ (by decide)) (by decide)
  have h : onlyChanges [.gru, .mdu, .thu, .hlc] s
      (recomputeWeights ((addOwed i s.gru.pool
        (onLine i (fun l => { l with state := .idle, flushTimer := .stopped }) s)).onGru fun g => { g with pool := 0 })) := by
    refine onlyChanges_then recomputeWeights_frame ?_ (by decide)
    refine onlyChanges_then (fun v => onGru_frame v _) ?_ (by decide)
    refine onlyChanges_then (addOwed_frame i _) ?_ (by decide)
    exact onlyChanges_mono (onLine_frame i _ s) (by decide)
  exact onlyChanges_ite (onlyChanges_then withdrawGroutNone_frame h (by decide)) h

theorem returnTest_frame (i : Fin 6) (s : State) : onlyChanges [.gru, .mdu, .thu, .hlc] s (returnTest i s) :=
  onlyChanges_ite (returnLine_frame i s) (onlyChanges_refl _ s)

theorem returnAll_frame (s : State) : onlyChanges [.gru, .mdu, .thu, .hlc] s (returnAll s) :=
  onlyChanges_foldl (fun v i => returnTest_frame i v) _ s

theorem countStrokes_frame (i : Fin 6) (n : Nat) (s : State) :
    onlyChanges [.gru, .mdu, .thu, .hlc] s (countStrokes i n s) := by
  unfold countStrokes
  refine onlyChanges_then evalShortfall_frame ?_ (by decide)
  exact onlyChanges_mono (onLine_frame i _ s) (by decide)

theorem groutReport_frame (i : Fin 6) (r : GroutReport) (s : State) :
    onlyChanges [.gru, .mdu, .thu, .hlc] s (groutReport i r s) := by
  unfold groutReport
  dsimp only
  generalize newStrokes (s.line i) r.count = n
  have h := onlyChanges_mono (m := [.gru, .mdu, .thu, .hlc])
    (onLine_frame i (fun l => { l with lastPressure := some r.pressure, pumpRunning := some r.pump,
                                       flushOpen := some r.flush, lastCount := some r.count }) s) (by decide)
  revert h
  generalize onLine i (fun l => { l with lastPressure := some r.pressure, pumpRunning := some r.pump,
                                         flushOpen := some r.flush, lastCount := some r.count }) s = u
  intro h
  have k := onlyChanges_then (countStrokes_frame i n) h (by decide)
  have l := onlyChanges_then (paidTest_frame i) k (by decide)
  have m : onlyChanges [.gru, .mdu, .thu, .hlc] s (if n = 0 then u else paidTest i (countStrokes i n u)) :=
    onlyChanges_ite h l
  exact onlyChanges_then (returnTest_frame i) (onlyChanges_then (pressureTest_frame i _) m (by decide)) (by decide)

theorem accrue_frame (r : StepRecord) (s : State) : onlyChanges [.gru, .mdu, .thu, .hlc, .rgu] s (accrue r s) := by
  unfold accrue
  dsimp only
  refine onlyChanges_then (f := evalShortfall) evalShortfall_frame ?_ (by decide)
  refine onlyChanges_trans ?_ (onlyChanges_mono (onlyChanges_foldl (fun v i => increaseTest_frame i v) _ _) (by decide))
  split
  · exact onlyChanges_mono (onGru_frame s _) (by decide)
  · refine onlyChanges_then (f := lateAccrual r) (lateAccrual_frame r) ?_ (by decide)
    exact onlyChanges_mono (onGru_frame s _) (by decide)

theorem groutLost_frame (i : Fin 6) (s : State) : onlyChanges [.gru, .mdu, .thu, .hlc] s (groutLost i s) := by
  unfold groutLost
  have h {f : Line → Line} := onlyChanges_mono (m := [.gru, .mdu, .thu, .hlc]) (onLine_frame i f s) (by decide)
  dsimp only
  split
  · exact onlyChanges_then (onLine_frame i _) h (by decide)
  all_goals exact onlyChanges_then (leaveTo_frame i _) h (by decide)

theorem stopAllInjecting_frame (s : State) : onlyChanges [.gru] s (stopAllInjecting s) :=
  onlyChanges_foldl (fun v i => stopInjecting_frame i v) _ s

theorem doseAll_frame (s : State) : onlyChanges [.gru] s (doseAll s) :=
  onlyChanges_foldl (fun v i => doseTest_frame i v) _ s

theorem groutMode_frame (a b : Mode) (s : State) : onlyChanges [.gru, .mdu, .thu, .hlc] s (groutMode a b s) := by
  have stop := onlyChanges_mono (m := [.gru, .mdu, .thu, .hlc]) (stopAllInjecting_frame s) (by decide)
  have dose := onlyChanges_mono (m := [.gru, .mdu, .thu, .hlc]) (doseAll_frame s) (by decide)
  unfold groutMode
  split
  · exact onlyChanges_then returnAll_frame stop (by decide)
  · refine onlyChanges_ite ?_ stop
    have k : onlyChanges [.gru, .mdu, .thu, .hlc] s
        (if (stopAllInjecting s).gru.shortfall = .short then postHold .groutShort (stopAllInjecting s)
          else stopAllInjecting s) :=
      onlyChanges_ite (onlyChanges_then (fun v => postHold_frame v _) stop (by decide)) stop
    exact onlyChanges_ite (onlyChanges_then postGroutNone_frame k (by decide)) k
  · exact stop
  · exact onlyChanges_ite (onlyChanges_refl _ s) dose
  · exact onlyChanges_ite (onlyChanges_refl _ s) dose

theorem groutProfile_frame (o : Profile) (s : State) : onlyChanges [.gru, .mdu, .thu, .hlc] s (groutProfile o s) := by
  unfold groutProfile
  have last : ∀ u, onlyChanges [.gru, .mdu, .thu, .hlc] s u →
      onlyChanges [.gru, .mdu, .thu, .hlc] s
        (if o.shortLimit = s.profile.shortLimit ∧ o.shortResume = s.profile.shortResume then u else evalShortfall u) :=
    fun u h => onlyChanges_ite h (onlyChanges_then evalShortfall_frame h (by decide))
  refine last _ ?_
  have third : ∀ u, onlyChanges [.gru, .mdu, .thu, .hlc] s u →
      onlyChanges [.gru, .mdu, .thu, .hlc] s
        (if o.blockOwed = s.profile.blockOwed then u
          else allLines.foldl (fun s i => if blockDue s i then blockLine i s else s) u) := fun u h =>
    onlyChanges_ite h (onlyChanges_trans h (onlyChanges_foldl
      (fun v i => onlyChanges_ite (blockLine_frame i v) (onlyChanges_refl _ v)) _ u))
  refine third _ ?_
  have second : ∀ u, onlyChanges [.gru, .mdu, .thu, .hlc] s u →
      onlyChanges [.gru, .mdu, .thu, .hlc] s
        (if o.groutPMax = s.profile.groutPMax ∧ o.groutHyst = s.profile.groutHyst then u
          else allLines.foldl (fun s i => match (s.line i).lastPressure with
            | some v => pressureTest i v s
            | none => s) u) := fun u h => by
    refine onlyChanges_ite h (onlyChanges_trans h (onlyChanges_foldl (fun v i => ?_) _ u))
    split
    · exact onlyChanges_mono (pressureTest_frame i _ v) (by decide)
    · exact onlyChanges_refl _ v
  refine second _ ?_
  exact onlyChanges_ite (onlyChanges_refl _ s) (onlyChanges_mono (doseAll_frame s) (by decide))

theorem groutGeometry_frame (g : Geometry) (n : Nat) (s : State) :
    onlyChanges [.gru, .mdu, .thu, .hlc] s (groutGeometry g n s) := by
  have h : onlyChanges [.gru, .mdu, .thu, .hlc] s (beginFigures n s) :=
    onlyChanges_mono (beginFigures_frame n s) (by decide)
  have h := onlyChanges_trans h (onlyChanges_mono (onGru_frame (beginFigures n s) fun u =>
    { u with lines := Vector.ofFn fun i => { u.lines[i] with configured := some g.lineWeight[i] } }) (by decide))
  have h := onlyChanges_trans h (onlyChanges_mono (recomputeWeights_frame _) (by decide))
  exact onlyChanges_trans h (onlyChanges_mono (returnAll_frame _) (by decide))

end Sys2Proof.Machine
end

