-- ==== Sys2Proof/Laws/FaceFrames.lean ====
section
/-! SUPPORT. What each operation of the Face, Thrust, Cutterhead and Advance Units can change. -/

set_option Elab.async false

namespace Sys2Proof.Machine

/-! ## Face -/

theorem capScrew_frame (s : State) : onlyChanges [.fcu] s (capScrew s) :=
  onlyChanges_ite (setScrew_frame s _) (onlyChanges_refl _ s)

theorem binTest_frame (n : Nat) (s : State) : onlyChanges [.fcu, .mdu, .thu, .hlc] s (binTest n s) := by
  unfold binTest
  split
  · refine onlyChanges_then (f := postHold .binFull) (fun v => postHold_frame v _) ?_ (by decide)
    exact onlyChanges_mono (onFcu_frame s _) (by decide)
  · split
    · refine onlyChanges_then (f := withdrawHold .binFull) (fun v => withdrawHold_frame v _) ?_ (by decide)
      exact onlyChanges_mono (onFcu_frame s _) (by decide)
    · exact onlyChanges_refl _ s

theorem binRetest_frame (s : State) : onlyChanges [.fcu, .mdu, .thu, .hlc] s (binRetest s) := by
  unfold binRetest
  split
  · exact onlyChanges_ite (binTest_frame _ s) (onlyChanges_refl _ s)
  · exact onlyChanges_refl _ s

theorem chamberTest_frame (n : Nat) (s : State) : onlyChanges [.fcu, .mdu, .thu, .hlc] s (chamberTest n s) := by
  unfold chamberTest
  dsimp only
  split
  · refine onlyChanges_then (f := postHold .chamberHigh) (fun v => postHold_frame v _) ?_ (by decide)
    exact onlyChanges_mono (onFcu_frame s _) (by decide)
  · split
    · refine onlyChanges_then (f := withdrawHold .chamberHigh) (fun v => withdrawHold_frame v _) ?_ (by decide)
      exact onlyChanges_mono (onFcu_frame s _) (by decide)
    · exact onlyChanges_refl _ s

theorem chamberRetest_frame (s : State) : onlyChanges [.fcu, .mdu, .thu, .hlc] s (chamberRetest s) := by
  unfold chamberRetest
  split
  · exact onlyChanges_ite (chamberTest_frame _ s) (onlyChanges_refl _ s)
  · exact onlyChanges_refl _ s

theorem underTest_frame (s : State) : onlyChanges [.fcu, .mdu] s (underTest s) := by
  have mark {b : Bool} {u : State} (h : onlyChanges [.fcu, .mdu] s u) :
      onlyChanges [.fcu, .mdu] s (markHalt .faceUnder b u) :=
    onlyChanges_then (f := markHalt .faceUnder b) (fun v => markHalt_frame v _ _) h (by decide)
  have on {f : Fcu → Fcu} {u : State} (h : onlyChanges [.fcu, .mdu] s u) : onlyChanges [.fcu, .mdu] s (u.onFcu f) :=
    onlyChanges_then (f := fun v => v.onFcu f) (fun v => onFcu_frame v f) h (by decide)
  have id := onlyChanges_refl [.fcu, .mdu] s
  unfold underTest
  split
  · exact id
  · split
    · exact onlyChanges_ite id (mark (on id))
    · have h : onlyChanges [.fcu, .mdu] s
          (if s.fcu.under = .suspended then s.onFcu fun f => { f with under := .clear } else s) :=
        onlyChanges_ite (on id) id
      revert h
      generalize (if s.fcu.under = .suspended then s.onFcu fun f => { f with under := .clear } else s) = u
      intro h
      dsimp only
      split
      · refine mark (onlyChanges_then (f := setScrew 0) (fun v => setScrew_frame v 0) (on h) (by decide))
      · exact mark (on h)
      · exact mark (on h)
      all_goals exact h

/-- While no test is made again, a trim change and an activation leave the flags and the under-support state (R72). -/
theorem retests_keep (s : State) (h : retested s = false) :
    chamberRetest s = s ∧ binRetest s = s ∧ (underRetest s).fcu.under = s.fcu.under
    ∧ (underRetest s).fcu.underTimer = s.fcu.underTimer ∧ (underRetest s).mdu = s.mdu := by
  unfold chamberRetest binRetest underRetest
  cases s.fcu.last
  · exact ⟨rfl, rfl, rfl, rfl, rfl⟩
  · simp only [h, Bool.and_false, Bool.false_eq_true, if_false, true_and]
    split <;> exact ⟨rfl, rfl, rfl⟩

theorem underRetest_frame (s : State) : onlyChanges [.fcu, .mdu] s (underRetest s) := by
  have id := onlyChanges_refl [.fcu, .mdu] s
  unfold underRetest
  split
  · exact onlyChanges_ite (underTest_frame s)
      (onlyChanges_ite (onlyChanges_mono (setScrew_frame s 0) (by decide)) id)
  · exact id

theorem followRegulator_frame (s : State) : onlyChanges [.fcu] s (followRegulator s) := by
  unfold followRegulator
  split
  · exact onlyChanges_then (f := setScrew 0) (fun v => setScrew_frame v 0) (onFcu_frame s _) (by decide)
  · exact onFcu_frame s _

theorem regulate_frame (n : Nat) (s : State) : onlyChanges [.fcu] s (regulate n s) := by
  unfold regulate
  dsimp only
  exact onlyChanges_ite (onlyChanges_refl _ s) (setScrew_frame s _)

theorem noticeSensor_frame (n : Nat) (b : Bool) (r : Reading) (s : State) :
    onlyChanges [.hlc] s (noticeSensor n b r s) :=
  onlyChanges_ite (onlyChanges_refl _ s) (notify_frame s _ _)

theorem followBlind_frame (s : State) : onlyChanges [.fcu, .mdu] s (followBlind s) := by
  unfold followBlind
  dsimp only
  split
  · exact onlyChanges_refl _ s
  · have h : onlyChanges [.fcu, .mdu] s (followRegulator (s.onFcu fun f => { f with faceBlind := faceBlind s })) :=
      onlyChanges_then (f := followRegulator) followRegulator_frame
        (onlyChanges_mono (onFcu_frame s _) (by decide)) (by decide)
    exact onlyChanges_ite h
      (onlyChanges_then (f := withdrawHalt .faceBlind) (fun v => withdrawHalt_frame v _) h (by decide))

theorem sensorTest_frame (p : Option BulkheadReport) (r : BulkheadReport) (s : State) :
    onlyChanges [.fcu, .mdu, .hlc, .rgu] s (sensorTest p r s) := by
  unfold sensorTest
  dsimp only
  have sensor (n : Nat) (b : Bool) (x : Reading) {u : State} (h : onlyChanges [.fcu, .mdu, .hlc, .rgu] s u) :
      onlyChanges [.fcu, .mdu, .hlc, .rgu] s (noticeSensor n b x u) :=
    onlyChanges_then (f := noticeSensor n b x) (noticeSensor_frame n b x) h (by decide)
  have flag (f : RingFlags → RingFlags) {u : State} (h : onlyChanges [.fcu, .mdu, .hlc, .rgu] s u) :
      onlyChanges [.fcu, .mdu, .hlc, .rgu] s (flagOpen f u) :=
    onlyChanges_then (f := flagOpen f) (flagOpen_frame f) h (by decide)
  have blind {u : State} (h : onlyChanges [.fcu, .mdu, .hlc, .rgu] s u) :
      onlyChanges [.fcu, .mdu, .hlc, .rgu] s (followBlind u) :=
    onlyChanges_then (f := followBlind) followBlind_frame h (by decide)
  have axis (n : Nat) {u : State} (h : onlyChanges [.fcu, .mdu, .hlc, .rgu] s u) :
      onlyChanges [.fcu, .mdu, .hlc, .rgu] s (takeAxis n u) :=
    onlyChanges_then (f := takeAxis n) (takeAxis_frame n) h (by decide)
  refine onlyChanges_ite (axis _ (blind ?_)) (blind ?_)
  all_goals
    refine onlyChanges_ite (flag _ ?_) ?_
    all_goals exact sensor 2 _ _ (sensor 1 _ _ (sensor 0 _ _ (onlyChanges_refl _ s)))

theorem bulkheadReport_frame (r : BulkheadReport) (s : State) :
    onlyChanges [.fcu, .mdu, .thu, .hlc, .rgu] s (bulkheadReport r s) := by
  have a := onlyChanges_mono (m := [.fcu, .mdu, .thu, .hlc, .rgu])
    (onFcu_frame s (fun f => { f with last := some { r with bin := min 100 r.bin } })) (by decide)
  have b := onlyChanges_then (f := sensorTest s.fcu.last { r with bin := min 100 r.bin }) (sensorTest_frame _ _) a
    (by decide)
  have c := onlyChanges_then (f := binTest (min 100 r.bin)) (binTest_frame _) b (by decide)
  have d := onlyChanges_ite (c := r.axis.valid)
    (onlyChanges_then (f := chamberTest r.axis.pressure) (chamberTest_frame _) c (by decide)) c
  have e := onlyChanges_then (f := underTest) underTest_frame d (by decide)
  have f := onlyChanges_ite (c := (r.axis.valid && !underHeld s) = true)
    (onlyChanges_then (f := regulate r.axis.pressure) (regulate_frame _) e (by decide)) e
  exact onlyChanges_then (f := capScrew) capScrew_frame f (by decide)

theorem weighPulse_frame (s : State) : onlyChanges [.fcu, .rgu] s (weighPulse s) := by
  unfold weighPulse
  dsimp only
  refine onlyChanges_then (f := showMeasured) showMeasured_frame ?_ (by decide)
  exact onlyChanges_mono (onFcu_frame s _) (by decide)

theorem noticeExcavation_frame (b : Bool) (s : State) : onlyChanges [.hlc] s (noticeExcavation b s) :=
  notify_frame s _ _

theorem flagWeighing_frame (f : RingFlags → RingFlags) (s : State) : onlyChanges [.rgu] s (flagWeighing f s) := by
  unfold flagWeighing
  split
  · exact flagRing_frame _ f s
  · exact onlyChanges_refl _ s

theorem overCheck_frame (s : State) : onlyChanges [.fcu] s (overCheck s) := by
  unfold overCheck
  split
  all_goals first | exact onFcu_frame s _ | exact onlyChanges_refl _ s

theorem underCheck_frame (s : State) : onlyChanges [.fcu, .rgu, .hlc] s (underCheck s) := by
  unfold underCheck
  split
  · exact onlyChanges_refl _ s
  · dsimp only
    have a := onlyChanges_mono (m := [.fcu, .rgu, .hlc])
      (onFcu_frame s (fun f => { f with underMark := underExcavated s })) (by decide)
    exact onlyChanges_ite
      (onlyChanges_then (f := noticeExcavation false) (noticeExcavation_frame _)
        (onlyChanges_then (f := flagWeighing fun f => { f with underExcavation := true }) (flagWeighing_frame _) a
          (by decide)) (by decide)) a

theorem turnWeighing_frame (e : TransitEntry) (s : State) : onlyChanges [.fcu, .rgu, .hlc] s (turnWeighing e s) := by
  have show' {u : State} (h : onlyChanges [.fcu, .rgu, .hlc] s u) : onlyChanges [.fcu, .rgu, .hlc] s (showMeasured u) :=
    onlyChanges_then (f := showMeasured) showMeasured_frame h (by decide)
  unfold turnWeighing
  split
  · exact show' (onlyChanges_mono (onFcu_frame s _) (by decide))
  · split
    · exact onlyChanges_mono (onFcu_frame s _) (by decide)
    · exact show' (onlyChanges_trans (onlyChanges_mono (settleRing_frame s _ _) (by decide))
        (onlyChanges_mono (onFcu_frame _ _) (by decide)))

theorem releaseEntry_frame (e : TransitEntry) (s : State) : onlyChanges [.fcu, .rgu, .hlc] s (releaseEntry e s) := by
  unfold releaseEntry
  refine onlyChanges_then (f := underCheck) underCheck_frame ?_ (by decide)
  exact onlyChanges_then (f := overCheck) overCheck_frame (turnWeighing_frame e s) (by decide)

theorem releaseAged_frame (n : Nat) (s : State) : onlyChanges [.fcu, .rgu, .hlc] s (releaseAged n s) := by
  induction n generalizing s with
  | zero => exact onlyChanges_refl _ s
  | succ n ih =>
    unfold releaseAged
    split
    · exact onlyChanges_refl _ s
    · refine onlyChanges_ite (onlyChanges_trans ?_ (ih _)) (onlyChanges_refl _ s)
      exact onlyChanges_trans (onlyChanges_mono (onFcu_frame s _) (by decide)) (releaseEntry_frame _ _)

theorem releaseEarly_frame (s : State) : onlyChanges [.fcu, .rgu, .hlc] s (releaseEarly s) := by
  unfold releaseEarly
  split
  · exact onlyChanges_refl _ s
  · exact onlyChanges_trans (onlyChanges_mono (onFcu_frame s _) (by decide)) (releaseEntry_frame _ _)

theorem appendTransit_frame (r : StepRecord) (s : State) :
    onlyChanges [.fcu, .rgu, .hlc] s (appendTransit r s) := by
  unfold appendTransit
  dsimp only
  have a := onlyChanges_ite (c := decide (Config.transitCapacity ≤ s.fcu.transit.length))
    (releaseEarly_frame s) (onlyChanges_refl _ s)
  revert a
  generalize (if decide (Config.transitCapacity ≤ s.fcu.transit.length) = true then releaseEarly s else s) = u
  intro a
  have b := onlyChanges_trans a (onlyChanges_mono (m := [.fcu, .rgu, .hlc])
    (onFcu_frame u (fun f => { f with transit := f.transit ++ [transitEntry u.geometry r] })) (by decide))
  exact onlyChanges_ite (onlyChanges_trans b (releaseAged_frame _ _)) b

theorem faceMode_frame (a b : Mode) (s : State) : onlyChanges [.fcu, .mdu, .thu, .hlc] s (faceMode a b s) := by
  unfold faceMode
  dsimp only
  have c : onlyChanges [.fcu, .mdu, .thu, .hlc] s (capScrew (followRegulator s)) :=
    onlyChanges_then (f := capScrew) capScrew_frame
      (onlyChanges_mono (followRegulator_frame s) (by decide)) (by decide)
  revert c
  generalize capScrew (followRegulator s) = u
  intro c
  have post (r : HoldReason) {v : State} (h : onlyChanges [.fcu, .mdu, .thu, .hlc] s v) :
      onlyChanges [.fcu, .mdu, .thu, .hlc] s (postHold r v) :=
    onlyChanges_then (f := postHold r) (fun v => postHold_frame v _) h (by decide)
  have d := onlyChanges_ite (c := u.fcu.binHalt = true) (post .binFull c) c
  exact onlyChanges_ite (onlyChanges_ite (post .chamberHigh d) d) c

theorem faceProfile_frame (o : Profile) (s : State) : onlyChanges [.fcu, .mdu, .thu, .hlc] s (faceProfile o s) := by
  unfold faceProfile
  dsimp only
  refine onlyChanges_then (f := capScrew) capScrew_frame ?_ (by decide)
  have a := onlyChanges_ite
    (c := o.chamberTarget = s.profile.chamberTarget ∧ o.chamberOver = s.profile.chamberOver ∧ o.deadband = s.profile.deadband)
    (onlyChanges_refl [.fcu, .mdu, .thu, .hlc] s) (chamberRetest_frame s)
  have b := onlyChanges_ite (c := o.binHalt = s.profile.binHalt ∧ o.binResume = s.profile.binResume) a
    (onlyChanges_trans a (binRetest_frame _))
  exact onlyChanges_ite b (onlyChanges_trans b (onlyChanges_mono (underRetest_frame _) (by decide)))

theorem faceGeometry_frame (n : Nat) (s : State) : onlyChanges [.fcu, .rgu] s (faceGeometry n s) := by
  unfold faceGeometry
  refine onlyChanges_then (f := showMeasured) showMeasured_frame ?_ (by decide)
  exact onlyChanges_mono (onFcu_frame s _) (by decide)

theorem faceRestart_frame (s : State) : onlyChanges [.fcu] s (faceRestart s) := by
  unfold faceRestart
  exact onlyChanges_then (f := setScrew 0) (fun v => setScrew_frame v 0) (onFcu_frame s _) (by decide)

/-! ## Thrust -/

theorem evalGroupShort_frame (s : State) : onlyChanges [.thu, .mdu, .hlc] s (evalGroupShort s) := by
  unfold evalGroupShort
  split
  · exact onlyChanges_mono (onThu_frame s _) (by decide)
  · exact onlyChanges_mono (onThu_frame s _) (by decide)
  · refine onlyChanges_then (f := withdrawHold .groupShort) (fun v => withdrawHold_frame v _) ?_ (by decide)
    exact onlyChanges_mono (onThu_frame s _) (by decide)
  all_goals exact onlyChanges_refl _ s

theorem evalThrust_frame (s : State) : onlyChanges [.thu, .mdu, .hlc] s (evalThrust s) := by
  unfold evalThrust
  refine onlyChanges_trans ?_ (onlyChanges_mono (changeHold_frame _ _ _) (by decide))
  exact onlyChanges_then (f := evalGroupShort) evalGroupShort_frame
    (onlyChanges_mono (commandPairs_frame s) (by decide)) (by decide)

theorem tellBld_frame (w : ArcWord) (s : State) : onlyChanges [.bld] s (tellBld w s) := onBld_frame s _

theorem tellReseated_frame (n : Nat) (s : State) : onlyChanges [.bld] s (tellReseated n s) :=
  onlyChanges_then (f := tellBld _) (tellBld_frame _) (onBld_frame s _) (by decide)

theorem tellRequester_frame (a : Arc) (w : ArcWord) (s : State) : onlyChanges [.bld] s (tellRequester a w s) :=
  onlyChanges_ite (tellBld_frame w s) (onlyChanges_refl _ s)

theorem onArc_frame (n : Nat) (f : Arc → Arc) (s : State) : onlyChanges [.thu] s (onArc n f s) := onThu_frame s _

theorem completeArc_frame (a : Arc) (s : State) : onlyChanges [.thu, .bld] s (completeArc a s) := by
  have id := onlyChanges_refl [.thu, .bld] s
  unfold completeArc
  split
  · refine onlyChanges_ite ?_ id
    exact onlyChanges_then (f := tellRequester a _) (tellRequester_frame _ _)
      (onlyChanges_mono (onArc_frame _ _ s) (by decide)) (by decide)
  · exact id
  · refine onlyChanges_ite ?_ id
    dsimp only
    have h := onlyChanges_mono (m := [.thu, .bld]) (onThu_frame s (fun t =>
      { t with
        pairs := Vector.ofFn fun i =>
          { t.pairs[i] with tag := if t.pairs[i].tag = some a.id then none else t.pairs[i].tag },
        arcs := t.arcs.filter fun b => b.id != a.id })) (by decide)
    exact onlyChanges_ite (onlyChanges_then (f := tellReseated a.id) (tellReseated_frame _) h (by decide)) h

theorem completeArcs_frame (s : State) : onlyChanges [.thu, .bld] s (completeArcs s) :=
  onlyChanges_foldl (fun v a => completeArc_frame a v) _ s

theorem grantArc_frame (r : ArcRequest) (s : State) : onlyChanges [.thu] s (grantArc r s) := onThu_frame s _

theorem admitWaiting_frame (s : State) : onlyChanges [.thu, .bld] s (admitWaiting s) := by
  unfold admitWaiting
  split
  · exact onlyChanges_refl _ s
  · rename_i r _
    split
    · dsimp only
      have h : onlyChanges [.thu, .bld] s (tellBld (.granted (newArc s r).id (newArc s r).start (newArc s r).width)
          ((grantArc r s).onThu fun t => { t with waiting := none })) :=
        onlyChanges_then (f := tellBld _) (tellBld_frame _)
          (onlyChanges_then (f := fun v => v.onThu fun t => { t with waiting := none }) (fun v => onThu_frame v _)
            (onlyChanges_mono (grantArc_frame r s) (by decide)) (by decide)) (by decide)
      exact onlyChanges_ite (onlyChanges_then (f := tellBld _) (tellBld_frame _) h (by decide)) h
    · exact onlyChanges_refl _ s

theorem settleThrust_frame (s : State) : onlyChanges [.thu, .mdu, .hlc, .bld] s (settleThrust s) := by
  unfold settleThrust
  refine onlyChanges_then (f := evalThrust) evalThrust_frame ?_ (by decide)
  refine onlyChanges_then (f := admitWaiting) admitWaiting_frame ?_ (by decide)
  exact onlyChanges_mono (completeArcs_frame s) (by decide)

theorem requestArc_frame (r : ArcRequest) (s : State) : onlyChanges [.thu, .mdu, .hlc] s (requestArc r s) := by
  unfold requestArc
  split
  · exact onlyChanges_refl _ s
  · exact onlyChanges_then (f := evalThrust) evalThrust_frame
      (onlyChanges_mono (grantArc_frame r s) (by decide)) (by decide)
  · exact onlyChanges_mono (onThu_frame s _) (by decide)

theorem cancelWaiting_frame (s : State) : onlyChanges [.thu] s (cancelWaiting s) := onThu_frame s _

theorem startReseat_frame (a : Arc) (b : Bool) (s : State) : onlyChanges [.thu] s (startReseat a b s) := by
  unfold startReseat
  exact onlyChanges_trans (onThu_frame s _) (onArc_frame _ _ _)

theorem requestReseat_frame (n : Nat) (s : State) : onlyChanges [.thu, .mdu, .hlc, .bld] s (requestReseat n s) := by
  unfold requestReseat
  split
  · exact onlyChanges_mono (tellReseated_frame _ s) (by decide)
  · refine onlyChanges_ite (onlyChanges_mono (onArc_frame _ _ s) (by decide)) ?_
    exact onlyChanges_then (f := settleThrust) settleThrust_frame
      (onlyChanges_mono (startReseat_frame _ _ s) (by decide)) (by decide)

theorem markPlaced_frame (n : Nat) (s : State) : onlyChanges [.thu] s (markPlaced n s) := onArc_frame n _ s

theorem releaseExpiry_frame (a : Arc) (s : State) : onlyChanges [.thu, .bld] s (releaseExpiry a s) :=
  onlyChanges_then (f := tellRequester a _) (tellRequester_frame _ _)
    (onlyChanges_mono (onArc_frame _ (fun a => { a with release := .stopped }) s) (by decide)) (by decide)

theorem reseatExpiry_frame (a : Arc) (s : State) : onlyChanges [.thu, .bld] s (reseatExpiry a s) :=
  onlyChanges_then (f := tellRequester a _) (tellRequester_frame _ _)
    (onlyChanges_mono (onArc_frame _ (fun a => { a with reseat := .expired }) s) (by decide)) (by decide)

theorem setPairState_frame (i : Fin 16) (st : PairState) (s : State) :
    onlyChanges [.thu, .hlc] s (setPairState i st s) := by
  unfold setPairState
  dsimp only
  split
  · exact onlyChanges_refl _ s
  · have h {f : Thu → Thu} := onlyChanges_mono (m := [.thu, .hlc]) (onThu_frame s f) (by decide)
    split
    · exact onlyChanges_trans h (onlyChanges_mono (notify_frame _ _ _) (by decide))
    · exact h

theorem settleIfChanged_frame (b : Thu) (s : State) : onlyChanges [.thu, .mdu, .hlc, .bld] s (settleIfChanged b s) :=
  onlyChanges_ite (onlyChanges_refl _ s) (settleThrust_frame s)

theorem thrustReport_frame (k : Fin 4) (e : Vector (Nat × Bool × PairStatus) 4) (s : State) :
    onlyChanges [.thu, .mdu, .hlc, .bld] s (thrustReport k e s) := by
  unfold thrustReport
  dsimp only
  refine onlyChanges_then (f := settleIfChanged s.thu) (settleIfChanged_frame _) ?_ (by decide)
  refine onlyChanges_mono (onlyChanges_foldl (l := [.thu, .hlc]) (fun v a => ?_) _ s) (by decide)
  exact onlyChanges_trans (onlyChanges_mono (onThu_frame v _) (by decide)) (setPairState_frame _ _ _)

theorem thrustLost_frame (k : Fin 4) (s : State) : onlyChanges [.thu, .mdu, .hlc, .bld] s (thrustLost k s) := by
  unfold thrustLost
  refine onlyChanges_then (f := settleIfChanged s.thu) (settleIfChanged_frame _) ?_ (by decide)
  exact onlyChanges_mono (onlyChanges_foldl (fun v a => setPairState_frame _ _ v) _ s) (by decide)

theorem reinstatePair_frame (i : Fin 16) (s : State) : onlyChanges [.thu, .mdu, .hlc, .bld] s (reinstatePair i s) := by
  unfold reinstatePair
  exact onlyChanges_then (f := settleIfChanged s.thu) (settleIfChanged_frame _)
    (onlyChanges_mono (setPairState_frame i _ s) (by decide)) (by decide)

theorem setSetpoints_frame (v : Vector Nat 4) (s : State) : onlyChanges [.thu, .mdu, .hlc] s (setSetpoints v s) := by
  unfold setSetpoints
  refine onlyChanges_then (f := evalGroupShort) evalGroupShort_frame ?_ (by decide)
  exact onlyChanges_mono (onlyChanges_trans (onThu_frame s _) (commandPairs_frame _)) (by decide)

theorem thrustMode_frame (a b : Mode) (s : State) : onlyChanges [.thu, .mdu, .hlc] s (thrustMode a b s) := by
  unfold thrustMode
  split
  · dsimp only
    have post (r : HoldReason) {u : State} (h : onlyChanges [.thu, .mdu, .hlc] s u) :
        onlyChanges [.thu, .mdu, .hlc] s (postHold r u) :=
      onlyChanges_then (f := postHold r) (fun v => postHold_frame v _) h (by decide)
    have id := onlyChanges_refl [.thu, .mdu, .hlc] s
    have last : ∀ u, onlyChanges [.thu, .mdu, .hlc] s u →
        onlyChanges [.thu, .mdu, .hlc] s (if thrustMin u = true then postHold .thrustMin u else u) :=
      fun u h => onlyChanges_ite (post _ h) h
    refine last _ ?_
    split
    · exact post _ id
    · exact onlyChanges_mono (onThu_frame s _) (by decide)
    all_goals exact id
  · exact onlyChanges_refl _ s

theorem thrustProfile_frame (o : Profile) (s : State) :
    onlyChanges [.thu, .mdu, .hlc, .bld] s (thrustProfile o s) := by
  unfold thrustProfile
  dsimp only
  have a := onlyChanges_ite (c := o.holdPressure = s.profile.holdPressure)
    (onlyChanges_refl [.thu, .mdu, .hlc, .bld] s) (onlyChanges_mono (commandPairs_frame s) (by decide))
  exact onlyChanges_ite a (onlyChanges_trans a (settleThrust_frame _))

theorem thrustGeometry_frame (g : Geometry) (s : State) : onlyChanges [.thu, .mdu, .hlc] s (thrustGeometry g s) :=
  setSetpoints_frame _ s

theorem thrustRestart_frame (s : State) : onlyChanges [.thu, .bld] s (thrustRestart s) := by
  unfold thrustRestart
  dsimp only
  refine onlyChanges_then (f := commandPairs) commandPairs_frame ?_ (by decide)
  refine onlyChanges_then (f := completeArcs) completeArcs_frame ?_ (by decide)
  refine onlyChanges_mono (m := [.thu, .bld]) (l := [.thu]) ?_ (by decide)
  refine onlyChanges_trans (onThu_frame s _) (onlyChanges_foldl (fun v a => ?_) _ _)
  exact onlyChanges_ite (onlyChanges_refl _ v) (startReseat_frame a false v)

/-! ## Cutterhead -/

theorem startRamp_frame (d : DriveState) (s : State) : onlyChanges [.chu, .mdu] s (startRamp d s) := by
  unfold startRamp
  exact onlyChanges_then (f := setDrive d) (fun v => setDrive_frame v d)
    (onlyChanges_mono (onChu_frame s _) (by decide)) (by decide)

theorem retarget_frame (s : State) : onlyChanges [.chu, .mdu] s (retarget s) := by
  have id := onlyChanges_refl [.chu, .mdu] s
  unfold retarget
  dsimp only
  split
  · refine onlyChanges_ite id ?_
    exact onlyChanges_then (f := startRamp .ramping) (startRamp_frame _)
      (onlyChanges_mono (onChu_frame s _) (by decide)) (by decide)
  · exact onlyChanges_ite (startRamp_frame _ s) (startRamp_frame _ s)
  · exact onlyChanges_ite (startRamp_frame _ s) (startRamp_frame _ s)
  · exact onlyChanges_ite (setDrive_frame s _) (onlyChanges_ite (startRamp_frame _ s) id)
  · exact id

theorem setHostTarget_frame (n : Nat) (d : Direction) (s : State) :
    onlyChanges [.chu, .mdu] s (setHostTarget n d s) := by
  unfold setHostTarget
  dsimp only
  have a : ∀ f g : Chu → Chu, onlyChanges [.chu, .mdu] s ((s.onChu f).onChu g) := fun f g =>
    onlyChanges_mono (onlyChanges_trans (onChu_frame s f) (onChu_frame _ g)) (by decide)
  exact onlyChanges_ite (a _ _) (onlyChanges_then (f := retarget) retarget_frame (a _ _) (by decide))

theorem reapply_frame (s : State) : onlyChanges [.chu, .mdu] s (reapply s) := setHostTarget_frame _ _ s

theorem evalStall_frame (s : State) : onlyChanges [.chu] s (evalStall s) := by
  unfold evalStall
  refine onlyChanges_ite (onlyChanges_refl _ s) (onlyChanges_ite ?_ (onChu_frame s _))
  split
  · exact onChu_frame s _
  · exact onlyChanges_refl _ s

theorem setCeiling_frame (s : State) : onlyChanges [.chu] s (setCeiling s) := onChu_frame s _

theorem noticeEnvelope_frame (b : Bool) (s : State) : onlyChanges [.hlc] s (noticeEnvelope b s) := notify_frame s _ _

theorem zoneTest_frame (s : State) : onlyChanges [.chu, .mdu, .hlc, .rgu] s (zoneTest s) := by
  have zone (b : Bool) : onlyChanges [.chu, .mdu, .hlc, .rgu] s
      (reapply (setCeiling (s.onChu fun c => { c with zone := b }))) :=
    onlyChanges_then (f := reapply) reapply_frame
      (onlyChanges_mono (onlyChanges_trans (onChu_frame s _) (setCeiling_frame _)) (by decide)) (by decide)
  unfold zoneTest
  split
  · exact onlyChanges_then (f := flagOpen _) (flagOpen_frame _)
      (onlyChanges_then (f := noticeEnvelope true) (noticeEnvelope_frame _) (zone true) (by decide)) (by decide)
  · split
    · exact onlyChanges_then (f := noticeEnvelope false) (noticeEnvelope_frame _) (zone false) (by decide)
    · exact onlyChanges_refl _ s

theorem followTrip_frame (s : State) : onlyChanges [.chu, .mdu] s (followTrip s) := by
  unfold followTrip
  dsimp only
  refine onlyChanges_ite ?_ (onlyChanges_refl _ s)
  exact onlyChanges_trans (onlyChanges_mono (onChu_frame s _) (by decide))
    (onlyChanges_mono (markHalt_frame _ _ _) (by decide))

theorem updateLoad_frame (n : Nat) (s : State) : onlyChanges [.chu, .mdu, .hlc, .rgu] s (updateLoad n s) := by
  unfold updateLoad
  split
  · exact onlyChanges_mono (onChu_frame s _) (by decide)
  · refine onlyChanges_then (f := followTrip) followTrip_frame ?_ (by decide)
    exact onlyChanges_trans (onlyChanges_mono (onChu_frame s _) (by decide)) (zoneTest_frame _)

theorem driveTransition_frame (r : DriveReport) (s : State) : onlyChanges [.chu, .mdu] s (driveTransition r s) := by
  have id := onlyChanges_refl [.chu, .mdu] s
  unfold driveTransition
  split
  · exact onlyChanges_ite (setDrive_frame s _) id
  · refine onlyChanges_ite ?_ id
    exact onlyChanges_then (f := setDrive .ramping) (fun v => setDrive_frame v _)
      (onlyChanges_mono (onChu_frame s _) (by decide)) (by decide)
  all_goals exact id

theorem driveReport_frame (r : DriveReport) (s : State) : onlyChanges [.chu, .mdu, .hlc, .rgu] s (driveReport r s) := by
  unfold driveReport
  refine onlyChanges_then (f := evalStall) evalStall_frame ?_ (by decide)
  refine onlyChanges_then (f := driveTransition r) (driveTransition_frame r) ?_ (by decide)
  exact onlyChanges_trans (onlyChanges_mono (onChu_frame s _) (by decide)) (updateLoad_frame _ _)

theorem stopDrive_frame (s : State) : onlyChanges [.chu, .mdu] s (stopDrive s) :=
  onlyChanges_then (f := setDrive .stopped) (fun v => setDrive_frame v _)
    (onlyChanges_mono (onChu_frame s
      (fun c => { c with hostSpeed := 0, applied := 0, stallTimer := .stopped })) (by decide)) (by decide)

theorem stallDrive_frame (s : State) : onlyChanges [.chu, .mdu] s (stallDrive s) :=
  onlyChanges_then (f := setDrive .stalled) (fun v => setDrive_frame v _)
    (onlyChanges_mono (onChu_frame s (fun c => { c with stallTimer := .stopped })) (by decide)) (by decide)

theorem releaseStall_frame (s : State) : onlyChanges [.chu, .mdu] s (releaseStall s) :=
  onlyChanges_ite (setDrive_frame s _) (onlyChanges_refl _ s)

theorem cutterMode_frame (m : Mode) (s : State) : onlyChanges [.chu, .mdu] s (cutterMode m s) := by
  unfold cutterMode
  refine onlyChanges_then (f := evalStall) evalStall_frame ?_ (by decide)
  exact onlyChanges_ite (reapply_frame s) (setHostTarget_frame _ _ s)

theorem restartRamp_frame (n : Nat) (s : State) : onlyChanges [.chu] s (restartRamp n s) := by
  unfold restartRamp
  split
  all_goals first | exact onChu_frame s _ | exact onlyChanges_refl _ s

theorem cutterProfile_frame (o : Profile) (s : State) :
    onlyChanges [.chu, .mdu, .hlc, .rgu] s (cutterProfile o s) := by
  unfold cutterProfile
  dsimp only
  refine onlyChanges_then (f := evalStall) evalStall_frame ?_ (by decide)
  have a := onlyChanges_ite (c := o.rampRate = s.profile.rampRate)
    (onlyChanges_refl [.chu, .mdu, .hlc, .rgu] s) (onlyChanges_mono (restartRamp_frame o.rampRate s) (by decide))
  have b := onlyChanges_ite (c := o.hHigh = s.profile.hHigh ∧ o.hLow = s.profile.hLow) a
    (onlyChanges_trans a (zoneTest_frame _))
  have c := onlyChanges_ite (c := o.hLow = s.profile.hLow) b
    (onlyChanges_trans b (onlyChanges_mono (followTrip_frame _) (by decide)))
  have d := onlyChanges_ite (c := o.ceilingPct = s.profile.ceilingPct ∧ o.throttlePct = s.profile.throttlePct) c
    (onlyChanges_trans c (onlyChanges_mono (setCeiling_frame _) (by decide)))
  exact onlyChanges_ite (onlyChanges_trans d (onlyChanges_mono (reapply_frame _) (by decide))) d

theorem cutterGeometry_frame (s : State) : onlyChanges [.chu] s (cutterGeometry s) :=
  onlyChanges_then (f := evalStall) evalStall_frame (setCeiling_frame s) (by decide)

/-! ## Advance -/

theorem strokeChecks_frame (s : State) :
    onlyChanges [.rgu, .adv, .mdu, .thu, .gru, .hlc] s (strokeChecks s) := by
  unfold strokeChecks
  split
  · exact onlyChanges_refl _ s
  · dsimp only
    rename_i g _
    have a := onlyChanges_ite (c := g.ringLength ≤ s.adv.stroke) (setStrokeDone_frame s) (onlyChanges_refl _ s)
    exact onlyChanges_ite
      (onlyChanges_then (f := postHold .strokeLimit) (fun v => postHold_frame v _) a (by decide)) a

theorem advanceStep_frame (d : Nat) (s : State) :
    onlyChanges [.adv, .thu, .fcu, .gru, .rgu, .mdu, .hlc] s (advanceStep d s) := by
  unfold advanceStep
  dsimp only
  generalize stepRecord d s = r
  refine onlyChanges_then (f := strokeChecks) strokeChecks_frame ?_ (by decide)
  refine onlyChanges_then (f := appendTransit r) (appendTransit_frame r) ?_ (by decide)
  refine onlyChanges_then (f := accrue r) (accrue_frame r) ?_ (by decide)
  refine onlyChanges_then (f := addStepTotals r) (addStepTotals_frame r) ?_ (by decide)
  exact onlyChanges_mono (onAdv_frame s _) (by decide)

theorem reversePulse_frame (s : State) : onlyChanges [.adv, .rgu, .mdu] s (reversePulse s) := by
  unfold reversePulse
  dsimp only
  have a := onlyChanges_then (l := [.adv, .rgu, .mdu]) (f := flagOpen fun f => { f with rollbackSeen := true })
    (flagOpen_frame _)
    (onlyChanges_mono (onAdv_frame s (fun a => { a with debt := min Config.rollbackMax (a.debt + 1) })) (by decide))
    (by decide)
  exact onlyChanges_ite (onlyChanges_trans a (onlyChanges_mono (markHalt_frame _ _ _) (by decide))) a

theorem repayingPulse_frame (s : State) : onlyChanges [.adv, .mdu] s (repayingPulse s) := by
  unfold repayingPulse
  dsimp only
  have a := onlyChanges_mono (m := [.adv, .mdu]) (onAdv_frame s (fun a => { a with debt := a.debt - 1 })) (by decide)
  exact onlyChanges_ite (onlyChanges_trans a (onlyChanges_mono (markHalt_frame _ _ _) (by decide))) a

theorem creditPulse_frame (s : State) : onlyChanges [.adv, .mdu] s (creditPulse s) :=
  onlyChanges_trans
    (onlyChanges_mono (onAdv_frame s
      (fun a => { a with stroke := min Config.strokeMax (a.stroke + 1), acc := a.acc + 1 })) (by decide))
    (onlyChanges_mono (creditStandstill_frame _) (by decide))

theorem advanceMode_frame (a b : Mode) (s : State) : onlyChanges [.mdu, .thu, .hlc] s (advanceMode a b s) :=
  onlyChanges_ite (postHold_frame s _) (onlyChanges_refl _ s)

theorem advanceGeometry_frame (s : State) : onlyChanges [.adv] s (advanceGeometry s) := onAdv_frame s _

end Sys2Proof.Machine
end

