-- ==== Sys2Proof/Laws/BuildFrames.lean ====
section
/-! SUPPORT. What each operation of the Build Unit can change. -/

set_option Elab.async false

namespace Sys2Proof.Machine

/-- One more operation after a frame. -/
theorem onlyChanges_and {l m : List Part} {s u v : State} (h : onlyChanges m u v) (k : onlyChanges l s u)
    (sub : ∀ p ∈ m, p ∈ l := by decide) : onlyChanges l s v :=
  onlyChanges_trans k (onlyChanges_mono h sub)

/-- The parts that a running plan can change: its own, THU's for the arcs, those of MDU and HLC, and at a ring
close those of RGU, ADV and GRU. -/
abbrev planParts : List Part := [.bld, .thu, .mdu, .hlc, .rgu, .adv, .gru]

section
variable (s : State)

theorem setPlan_frame (p : PlanState) : onlyChanges [.bld, .mdu] s (setPlan p s) :=
  onlyChanges_and (tellPlan_frame _ _) (onlyChanges_and (onBld_frame s _) (onlyChanges_refl _ s))

theorem setActivity_frame (p : PlanState) : onlyChanges [.bld, .mdu] s (setActivity p s) := by
  unfold setActivity
  split
  all_goals first | exact setPlan_frame s _ | exact onlyChanges_refl _ s

theorem setFlight_frame (f : Flight) : onlyChanges [.bld, .mdu] s (setFlight f s) :=
  onlyChanges_and (setActivity_frame _ _) (onlyChanges_and (onBld_frame s _) (onlyChanges_refl _ s))

theorem startStepTimer_frame : onlyChanges [.bld] s (startStepTimer s) := onBld_frame s _

theorem stay_frame (f : Flight) : onlyChanges [.bld, .mdu] s (stay f s) :=
  onlyChanges_and (setFlight_frame _ _) (onlyChanges_and (startStepTimer_frame s) (onlyChanges_refl _ s))

theorem onPlanArc_frame (n : Nat) (f : PlanArc → PlanArc) : onlyChanges [.bld] s (onPlanArc n f s) :=
  onBld_frame s _

theorem reseatPlanArc_frame (n : Nat) : onlyChanges [.bld, .thu, .mdu, .hlc] s (reseatPlanArc n s) :=
  onlyChanges_and (requestReseat_frame _ _) (onlyChanges_and (onPlanArc_frame s _ _) (onlyChanges_refl _ s))

theorem noticeFault_frame (c : PlanFault) : onlyChanges [.hlc] s (noticeFault c s) := notify_frame s _ _

theorem planFault_frame (c : PlanFault) : onlyChanges [.bld, .thu, .mdu, .hlc] s (planFault c s) := by
  unfold planFault
  dsimp only
  have arcs (l : List PlanArc) (v : State) : onlyChanges [.bld, .thu, .mdu, .hlc] v
      (l.foldl (fun s a => if a.phase = .reseating then s else reseatPlanArc a.id s) v) :=
    onlyChanges_foldl
      (fun u a => onlyChanges_ite (onlyChanges_refl _ u) (reseatPlanArc_frame u a.id)) l v
  have first : onlyChanges [.bld, .thu, .mdu, .hlc] s (if s.bld.flight = .admission then cancelWaiting s else s) :=
    onlyChanges_ite (onlyChanges_mono (cancelWaiting_frame s) (by decide)) (onlyChanges_refl _ s)
  refine onlyChanges_and (noticeFault_frame _ _) (onlyChanges_and (setPlan_frame _ _) ?_)
  exact onlyChanges_and (arcs _ _) (onlyChanges_and (onBld_frame _ _) first)

theorem beginOperation_frame (w : ErectorWork) : onlyChanges [.bld, .mdu] s (beginOperation w s) := by
  unfold beginOperation
  dsimp only
  exact onlyChanges_and (setFlight_frame _ _) (onlyChanges_and (onBld_frame s _) (onlyChanges_refl _ s))

theorem startErector_frame (b : Bool) (c : Except PlanFault ErectorWork) :
    onlyChanges [.bld, .thu, .mdu, .hlc] s (startErector b c s) := by
  unfold startErector
  split
  · exact planFault_frame s _
  · dsimp only
    have a : onlyChanges [.bld, .thu, .mdu, .hlc] s (if b = true then startStepTimer s else s) :=
      onlyChanges_ite (onlyChanges_mono (startStepTimer_frame s) (by decide)) (onlyChanges_refl _ s)
    exact onlyChanges_ite (onlyChanges_and (setFlight_frame _ _) a) (onlyChanges_and (beginOperation_frame _ _) a)

theorem goReseat_frame (n : Nat) : onlyChanges [.bld, .thu, .mdu, .hlc] s (goReseat n s) := by
  unfold goReseat
  exact onlyChanges_ite
    (onlyChanges_and (reseatPlanArc_frame _ n) (onlyChanges_mono (onBld_frame s _) (by decide)))
    (onlyChanges_and (setFlight_frame _ _) (reseatPlanArc_frame s n))

theorem finishEnd_frame : onlyChanges planParts s (finishEnd s) := by
  unfold finishEnd
  refine onlyChanges_ite ?_ (onlyChanges_mono (planFault_frame s _) (by decide))
  exact onlyChanges_and (setBuildDone_frame _) (onlyChanges_and (notify_frame _ _ _)
    (onlyChanges_and (setPlan_frame _ _) (onlyChanges_mono (onBld_frame s _) (by decide))))

theorem addPlanArc_frame (a b c : Nat) (p : ArcPhase) : onlyChanges [.bld] s (addPlanArc a b c p s) :=
  onBld_frame s _

theorem issueWithdraw_frame : onlyChanges [.bld, .thu, .mdu, .hlc] s (issueWithdraw s).2 := by
  unfold issueWithdraw
  dsimp only
  split
  · exact planFault_frame s _
  · exact onlyChanges_and (stay_frame _ _) (onlyChanges_mono (requestArc_frame _ s) (by decide))
  · exact onlyChanges_and (addPlanArc_frame _ _ _ _ _) (onlyChanges_mono (requestArc_frame _ s) (by decide))
  · exact onlyChanges_and (stay_frame _ _)
      (onlyChanges_and (addPlanArc_frame _ _ _ _ _) (onlyChanges_mono (requestArc_frame _ s) (by decide)))

theorem issueReseat_frame : onlyChanges [.bld, .thu, .mdu, .hlc] s (issueReseat s).2 := by
  have timed (n : Nat) : onlyChanges [.bld, .thu, .mdu, .hlc] s (goReseat n (startStepTimer s)) :=
    onlyChanges_trans (onlyChanges_mono (startStepTimer_frame s) (by decide)) (goReseat_frame _ n)
  unfold issueReseat
  split
  · exact planFault_frame s _
  · rename_i n _
    split
    · exact onlyChanges_mono (stay_frame s _) (by decide)
    · split
      · exact goReseat_frame s n
      · exact timed n

theorem issueAwait_frame : onlyChanges [.bld, .mdu] s (issueAwait s).2 := by
  unfold issueAwait
  split
  · exact onlyChanges_refl _ s
  · exact stay_frame s _

theorem issueCall_frame : onlyChanges [.bld, .thu, .mdu, .hlc] s (issueCall s).2 := by
  unfold issueCall
  split
  · exact planFault_frame s _
  · exact onlyChanges_mono (onBld_frame s _) (by decide)

theorem issueReturn_frame : onlyChanges [.bld, .thu, .mdu, .hlc] s (issueReturn s).2 := by
  unfold issueReturn
  split
  · exact planFault_frame s _
  · exact onlyChanges_mono (onBld_frame s _) (by decide)

theorem issueEnd_frame : onlyChanges planParts s (issueEnd s).2 :=
  onlyChanges_ite (finishEnd_frame s) (onlyChanges_mono (stay_frame s _) (by decide))

theorem issueStep_frame : onlyChanges planParts s (issueStep s).2 := by
  unfold issueStep
  dsimp only
  refine onlyChanges_trans
    (onlyChanges_mono (onBld_frame s (fun b => { b with stepTimer := .stopped, flight := .none })) (by decide)) ?_
  generalize (s.onBld fun b => { b with stepTimer := .stopped, flight := .none }) = u
  split
  · exact onlyChanges_mono (startErector_frame u _ _) (by decide)
  · exact onlyChanges_mono (issueWithdraw_frame u) (by decide)
  · exact onlyChanges_mono (startErector_frame u _ _) (by decide)
  · exact onlyChanges_mono (issueReseat_frame u) (by decide)
  · exact onlyChanges_mono (issueAwait_frame u) (by decide)
  · exact onlyChanges_mono (issueCall_frame u) (by decide)
  · exact onlyChanges_mono (issueReturn_frame u) (by decide)
  · exact onlyChanges_refl _ u
  · exact issueEnd_frame u

theorem runSteps_frame (n : Nat) : onlyChanges planParts s (runSteps n s) := by
  induction n generalizing s with
  | zero => exact onlyChanges_refl _ s
  | succ n ih =>
    unfold runSteps
    have h := issueStep_frame s
    split
    · rename_i u e; rw [e] at h; exact h
    · rename_i k u e
      rw [e] at h
      dsimp only
      have c : onlyChanges planParts s (u.onBld fun b => { b with loopCount := b.loopCount + 1 }) :=
        onlyChanges_and (onBld_frame u _) h
      split
      · exact onlyChanges_and (planFault_frame _ _) c
      · split
        · exact onlyChanges_trans (onlyChanges_and (onBld_frame _ _) c) (ih _)
        · exact onlyChanges_and (planFault_frame _ _) c

theorem issue_frame : onlyChanges planParts s (issue s) := runSteps_frame s _

theorem completeStep_frame : onlyChanges planParts s (completeStep s) := by
  unfold completeStep
  dsimp only
  have c : onlyChanges planParts s (s.onBld fun b => { b with stepTimer := .stopped, flight := .none }) :=
    onlyChanges_mono (onBld_frame s _) (by decide)
  split
  · have d := onlyChanges_and (onBld_frame _ fun b => { b with slot := ⟨s.bld.slot.val + 1, ‹_›⟩ }) c
    exact onlyChanges_ite (onlyChanges_trans d (issue_frame _)) d
  · exact onlyChanges_and (planFault_frame _ _) c

theorem completePick_frame (k : SegKind) (r : ErectorResult) : onlyChanges planParts s (completePick k r s) := by
  unfold completePick
  split
  all_goals first
    | exact onlyChanges_and (completeStep_frame _) (onlyChanges_mono (onBld_frame s _) (by decide))
    | exact onlyChanges_and (planFault_frame _ _) (onlyChanges_mono (onBld_frame s _) (by decide))

theorem recordPlaced_frame (k : SegKind) (a w n : Nat) (o : SegOutcome) (v : Nat) :
    onlyChanges planParts s (recordPlaced k a w n o v s) := by
  have c : onlyChanges planParts s (markPlaced n (appendSegment k a w o s)) :=
    onlyChanges_trans (onlyChanges_mono (appendSegment_frame k a w o s) (by decide))
      (onlyChanges_mono (markPlaced_frame n _) (by decide))
  unfold recordPlaced
  dsimp only
  revert c
  generalize markPlaced n (appendSegment k a w o s) = u
  intro c
  have d := onlyChanges_trans c (onlyChanges_mono (onPlanArc_frame u n fun a => { a with placed := true }) (by decide))
  exact onlyChanges_trans d (onlyChanges_mono (onBld_frame _ _) (by decide))

theorem completePlace_frame (k : SegKind) (a w n : Nat) (r : ErectorResult) :
    onlyChanges planParts s (completePlace k a w n r s) := by
  have fault (f : Bld → Bld) : onlyChanges planParts s (planFault .erectorStopped (s.onBld f)) :=
    onlyChanges_and (planFault_frame _ _) (onlyChanges_mono (onBld_frame s f) (by decide))
  cases r with
  | placed => exact onlyChanges_trans (recordPlaced_frame s k a w n .placed 0) (completeStep_frame _)
  | placedOffset => exact onlyChanges_trans (recordPlaced_frame s k a w n .placedOffset 1) (completeStep_frame _)
  | placeRetry =>
    exact onlyChanges_trans (onlyChanges_mono (onBld_frame s fun b => { b with outcome := 3 }) (by decide))
      (completeStep_frame _)
  | pickOk => exact fault _
  | pickRejected => exact fault _
  | stopped => exact fault _

theorem orphanEffect_frame (op : Operation) (r : ErectorResult) :
    onlyChanges [.bld, .hlc] s (orphanEffect op r s) := by
  unfold orphanEffect
  split
  all_goals first
    | exact onlyChanges_and (notify_frame _ _ _) (onlyChanges_mono (onBld_frame s _) (by decide))
    | exact onlyChanges_mono (onBld_frame s _) (by decide)
    | exact onlyChanges_refl _ s

theorem endOrphan_frame (op : Operation) (r : ErectorResult) : onlyChanges planParts s (endOrphan op r s) := by
  unfold endOrphan
  dsimp only
  have c : onlyChanges planParts s (orphanEffect op r (s.onBld fun b => { b with orphan := none })) :=
    onlyChanges_and (orphanEffect_frame _ _ _) (onlyChanges_mono (onBld_frame s _) (by decide))
  exact onlyChanges_ite (onlyChanges_ite (onlyChanges_and (startErector_frame _ _ _) c)
    (onlyChanges_and (startErector_frame _ _ _) c)) c

theorem endOperation_frame (n : Nat) (r : ErectorResult) : onlyChanges planParts s (endOperation n r s) := by
  unfold endOperation
  split
  · split
    · split
      · exact completePick_frame s _ _
      · exact completePlace_frame s _ _ _ _ _
    · exact onlyChanges_refl _ s
  all_goals exact onlyChanges_refl _ s

theorem takeErector_frame (r : ErectorReport) : onlyChanges planParts s (takeErector r s) := by
  unfold takeErector
  split
  · exact onlyChanges_refl _ s
  · exact endOperation_frame s _ _
  · exact onlyChanges_ite (endOrphan_frame s _ _) (endOperation_frame s _ _)

theorem takeGrant_frame (a b c : Nat) : onlyChanges planParts s (takeGrant a b c s) := by
  unfold takeGrant
  dsimp only
  have d : onlyChanges planParts s (addPlanArc a b c .withdrawing s) :=
    onlyChanges_mono (addPlanArc_frame s _ _ _ _) (by decide)
  exact onlyChanges_ite (onlyChanges_and (setFlight_frame _ _) d) (onlyChanges_and (reseatPlanArc_frame _ _) d)

theorem takeWithdrawn_frame (n : Nat) : onlyChanges planParts s (takeWithdrawn n s) := by
  unfold takeWithdrawn
  dsimp only
  have d : onlyChanges planParts s (onPlanArc n (fun a => { a with phase := .withdrawn }) s) :=
    onlyChanges_mono (onPlanArc_frame s _ _) (by decide)
  exact onlyChanges_ite (onlyChanges_trans d (completeStep_frame _)) d

theorem proceedReseat_frame : onlyChanges planParts s (proceedReseat s) := by
  unfold proceedReseat
  split
  · exact onlyChanges_mono (planFault_frame s _) (by decide)
  · dsimp only
    rename_i n _
    have d : onlyChanges planParts s (goReseat n s) := onlyChanges_mono (goReseat_frame s _) (by decide)
    exact onlyChanges_ite (onlyChanges_trans d (completeStep_frame _)) d

theorem takeReseated_frame (n : Nat) : onlyChanges planParts s (takeReseated n s) := by
  unfold takeReseated
  split
  · exact onlyChanges_ite (completeStep_frame s) (onlyChanges_refl _ s)
  · exact onlyChanges_ite (proceedReseat_frame s) (onlyChanges_refl _ s)
  · exact onlyChanges_ite (finishEnd_frame s) (onlyChanges_refl _ s)
  all_goals exact onlyChanges_refl _ s

theorem takeWord_frame (w : ArcWord) : onlyChanges planParts s (takeWord w s) := by
  unfold takeWord
  split
  · exact takeGrant_frame s _ _ _
  · exact takeWithdrawn_frame s _
  · exact onlyChanges_ite (onlyChanges_mono (planFault_frame s _) (by decide)) (onlyChanges_refl _ s)
  · exact takeReseated_frame s _
  · exact onlyChanges_ite (onlyChanges_mono (planFault_frame s _) (by decide)) (onlyChanges_refl _ s)

theorem takeWords_frame (n : Nat) : onlyChanges planParts s (takeWords n s) := by
  induction n generalizing s with
  | zero => exact onlyChanges_refl _ s
  | succ n ih =>
    unfold takeWords
    split
    · exact onlyChanges_refl _ s
    · exact onlyChanges_trans (onlyChanges_trans (onlyChanges_mono (onBld_frame s _) (by decide))
        (takeWord_frame _ _)) (ih _)

/-- An event at the plan changes what its first effect and THU's words change. -/
theorem planEvent_frame {f : State → State} (hf : ∀ v, onlyChanges planParts v (f v)) :
    onlyChanges planParts s (planEvent f s) :=
  onlyChanges_trans (onlyChanges_trans (onlyChanges_mono (onBld_frame s _) (by decide)) (hf _)) (takeWords_frame _ _)

theorem afterThrust_frame : onlyChanges planParts s (afterThrust s) :=
  onlyChanges_ite (onlyChanges_refl _ s) (planEvent_frame s fun v => onlyChanges_refl _ v)

theorem erectorReport_frame (r : ErectorReport) : onlyChanges planParts s (erectorReport r s) :=
  planEvent_frame s fun v => takeErector_frame v r

theorem strokeTest_frame : onlyChanges planParts s (strokeTest s) :=
  onlyChanges_ite (planEvent_frame s completeStep_frame) (onlyChanges_refl _ s)

theorem startPlan_frame (n : Fin 128) : onlyChanges planParts s (startPlan n s) := by
  unfold startPlan
  dsimp only
  exact onlyChanges_trans (onlyChanges_and (setPlan_frame _ _) (onlyChanges_mono (onBld_frame s _) (by decide)))
    (planEvent_frame _ issue_frame)

theorem stepExpiry_frame : onlyChanges planParts s (stepExpiry s) :=
  planEvent_frame s fun v => onlyChanges_mono (planFault_frame v _) (by decide)

theorem faultActive_frame (c : PlanFault) : onlyChanges planParts s (faultActive c s) :=
  onlyChanges_ite (planEvent_frame s fun v => onlyChanges_mono (planFault_frame v _) (by decide))
    (onlyChanges_refl _ s)

theorem pausePlan_frame (c : PauseCause) : onlyChanges [.bld, .mdu] s (pausePlan c s) := setPlan_frame s _

theorem resumePlan_frame : onlyChanges planParts s (resumePlan s) := by
  unfold resumePlan
  dsimp only
  have d : onlyChanges planParts s (setPlan s.bld.flight.activity s) :=
    onlyChanges_mono (setPlan_frame s _) (by decide)
  exact onlyChanges_ite (onlyChanges_trans d (planEvent_frame _ issue_frame)) d

theorem buildMode_frame (m : Mode) : onlyChanges planParts s (buildMode m s) := by
  unfold buildMode
  split
  · exact faultActive_frame s _
  · exact onlyChanges_ite (onlyChanges_mono (pausePlan_frame s _) (by decide)) (onlyChanges_refl _ s)
  all_goals exact onlyChanges_refl _ s

theorem buildRestart_frame : onlyChanges [.bld, .mdu] s (buildRestart s) := by
  unfold buildRestart
  dsimp only
  exact onlyChanges_and (setPlan_frame _ _) (onlyChanges_mono (onBld_frame s _) (by decide))

end

end Sys2Proof.Machine
end

