-- ==== Sys2Proof/Laws/ModeFrames.lean ====
section
/-! SUPPORT. What changes of mode, halts, activations, reports and visits can change. -/

set_option Elab.async false

namespace Sys2Proof.Machine

/-- The parts that a change of mode can change, with no profile pending: the job units, RGU, MDU and HLC. -/
abbrev modeParts : List Part := [.adv, .thu, .chu, .fcu, .gru, .bld, .rgu, .mdu, .hlc]

/-- The parts that an event at a job unit can change: those of a change of mode, and PFS for a pending
profile. -/
abbrev jobParts : List Part := .pfs :: modeParts

section
variable (s : State)

/-! ## Mode -/

theorem setMode_frame (m : Mode) (c : ModeCause) : onlyChanges [.mdu, .thu, .hlc] s (setMode m c s) := by
  unfold setMode
  dsimp only
  exact onlyChanges_and (evalStandstill_frame _) (onlyChanges_and (notify_frame _ _ _)
    (onlyChanges_and (decidePermission_frame _) (onlyChanges_mono (onMdu_frame s _) (by decide))))

theorem takeMode_frame (p : Mode) : onlyChanges modeParts s (takeMode p s) := by
  unfold takeMode
  dsimp only
  refine onlyChanges_and (buildMode_frame _ _) ?_
  refine onlyChanges_and (groutMode_frame _ _ _) ?_
  refine onlyChanges_and (faceMode_frame _ _ _) ?_
  refine onlyChanges_and (cutterMode_frame _ _) ?_
  refine onlyChanges_and (thrustMode_frame _ _ _) ?_
  exact onlyChanges_mono (advanceMode_frame _ _ s) (by decide)

theorem addHalt_frame (c : HaltCause) : onlyChanges [.mdu, .chu] s (addHalt c s) := by
  unfold addHalt
  dsimp only
  have a : onlyChanges [.mdu, .chu] s
      (s.onMdu fun m => { m with halts := m.halts.set c.index (some c.markAtAddition) }) :=
    onlyChanges_mono (onMdu_frame s _) (by decide)
  exact onlyChanges_ite (onlyChanges_and (onChu_frame _ _) a) a

theorem noticeHalt_frame (c : HaltCause) : onlyChanges [.hlc] s (noticeHalt c s) := notify_frame s _ _

theorem raiseHalt_frame (c : HaltCause) : onlyChanges modeParts s (raiseHalt c s) := by
  have enter (p : Mode) :
      onlyChanges modeParts s (takeMode p (noticeHalt c (setMode .halted (.halt c) (addHalt c s)))) :=
    onlyChanges_and (takeMode_frame _ p) (onlyChanges_and (noticeHalt_frame _ c)
      (onlyChanges_and (setMode_frame _ _ _) (onlyChanges_mono (addHalt_frame s c) (by decide))))
  unfold raiseHalt
  split
  · exact onlyChanges_refl _ s
  · exact onlyChanges_ite (onlyChanges_refl _ s)
      (onlyChanges_and (noticeHalt_frame _ c) (onlyChanges_mono (addHalt_frame s c) (by decide)))
  · exact enter _
  · exact enter _
  · exact enter _

theorem activate_frame (p : ProfileName) : onlyChanges jobParts s (activate p s) := by
  unfold activate
  dsimp only
  have a : onlyChanges jobParts s (recordActivation p (s.onPfs fun f => { f with active := p, next := none })) :=
    onlyChanges_and (recordActivation_frame p _) (onlyChanges_mono (onPfs_frame s _) (by decide))
  revert a
  generalize recordActivation p (s.onPfs fun f => { f with active := p, next := none }) = u
  intro a
  have b := onlyChanges_and (l := jobParts)
    (notify_frame u .profileActive [u1 p.index, u1 s.pfs.active.index, u2 u.adv.serial, u2 u.rgu.current.number]) a
  revert b
  generalize
    notify .profileActive [u1 p.index, u1 s.pfs.active.index, u2 u.adv.serial, u2 u.rgu.current.number] u = v
  intro b
  have c := onlyChanges_and (l := jobParts) (groutProfile_frame s.profile _)
    (onlyChanges_and (l := jobParts) (faceProfile_frame s.profile _)
      (onlyChanges_and (l := jobParts) (cutterProfile_frame s.profile _)
        (onlyChanges_and (l := jobParts) (afterThrust_frame _)
          (onlyChanges_and (l := jobParts) (thrustProfile_frame s.profile _) b))))
  revert c
  generalize groutProfile s.profile (faceProfile s.profile (cutterProfile s.profile
    (afterThrust (thrustProfile s.profile v)))) = w
  intro c
  have d : onlyChanges jobParts s
      (if w.profile.hTrip < s.profile.hTrip ∧ tripDue w = true then raiseHalt .loadTrip w else w) :=
    onlyChanges_ite (onlyChanges_and (raiseHalt_frame w _) c) c
  exact onlyChanges_ite (onlyChanges_and (advanceStep_frame _ _) d) d

theorem activatePending_frame : onlyChanges jobParts s (activatePending s) := by
  unfold activatePending
  split
  · exact activate_frame s _
  · exact onlyChanges_refl _ s

theorem leaveBoring_frame (p : Mode) : onlyChanges jobParts s (leaveBoring p s) :=
  onlyChanges_ite (activatePending_frame s) (onlyChanges_refl _ s)

/-- With no profile pending, leaving BORING changes nothing. -/
theorem leaveBoring_of_none (p : Mode) (h : s.pfs.next = none) : leaveBoring p s = s := by
  unfold leaveBoring activatePending
  split
  · rw [h]
  · rfl

theorem postHalt_frame (c : HaltCause) : onlyChanges jobParts s (postHalt c s) :=
  onlyChanges_trans (onlyChanges_mono (raiseHalt_frame s c) (by decide)) (leaveBoring_frame _ _)

theorem postHaltIf_frame (b : Bool) (c : HaltCause) : onlyChanges jobParts s (postHaltIf b c s) :=
  onlyChanges_ite (postHalt_frame s c) (onlyChanges_refl _ s)

theorem repostHalts_frame : onlyChanges jobParts s (repostHalts s) := by
  unfold repostHalts
  dsimp only
  exact onlyChanges_and (postHaltIf_frame _ _ _) (onlyChanges_and (postHaltIf_frame _ _ _)
    (onlyChanges_and (postHaltIf_frame _ _ _) (postHaltIf_frame s _ _)))

theorem changeMode_frame (m : Mode) (c : ModeCause) : onlyChanges jobParts s (changeMode m c s) := by
  unfold changeMode
  dsimp only
  have a : onlyChanges jobParts s (leaveBoring s.mdu.mode (takeMode s.mdu.mode (setMode m c s))) :=
    onlyChanges_and (leaveBoring_frame _ _) (onlyChanges_and (takeMode_frame _ _)
      (onlyChanges_mono (setMode_frame s m c) (by decide)))
  exact onlyChanges_ite (onlyChanges_and (repostHalts_frame _) a) a

theorem breakEvent_frame (n : Nat) : onlyChanges jobParts s (breakEvent n s) :=
  onlyChanges_ite (changeMode_frame s _ _) (onlyChanges_refl _ s)

theorem noticeEmptied_frame (h : Vector Bool 8) : onlyChanges [.hlc] s (noticeEmptied h s) :=
  onlyChanges_ite (onlyChanges_refl _ s) (notify_frame s _ _)

theorem noticeMode_frame (c : ModeCause) : onlyChanges [.hlc] s (noticeMode c s) := notify_frame s _ _

theorem enterStandby_frame (c : ModeCause) :
    onlyChanges [.mdu, .thu, .chu, .gru, .hlc] s (enterStandby c s) := by
  unfold enterStandby
  dsimp only
  generalize hr : (s.onMdu fun m =>
    { m with holds := Vector.replicate 8 false, halts := Vector.replicate 8 none, mode := .standby,
             previous := if m.mode = .standby then m.previous else m.mode, haltOut := false }) = u
  have a : onlyChanges [.mdu, .thu, .chu, .gru, .hlc] s u := by
    rw [← hr]; exact onlyChanges_mono (onMdu_frame s _) (by decide)
  have p := onlyChanges_and (l := [.mdu, .thu, .chu, .gru, .hlc]) (decidePermission_frame u) a
  have m := onlyChanges_ite (c := s.mdu.mode = .standby) p
    (onlyChanges_and (l := [.mdu, .thu, .chu, .gru, .hlc]) (noticeMode_frame _ c) p)
  have b := onlyChanges_and (l := [.mdu, .thu, .chu, .gru, .hlc]) (noticeEmptied_frame _ s.mdu.holds) m
  have c' := onlyChanges_and (l := [.mdu, .thu, .chu, .gru, .hlc]) (onChu_frame _ fun c => { c with trip := false }) b
  have d := onlyChanges_ite (c := haltMember s.mdu .stall = true)
    (onlyChanges_and (l := [.mdu, .thu, .chu, .gru, .hlc]) (releaseStall_frame _) c') c'
  have e := onlyChanges_and (l := [.mdu, .thu, .chu, .gru, .hlc]) (repostGroutNone_frame _) d
  exact onlyChanges_and (evalStandstill_frame _) e

theorem toStandby_frame : onlyChanges jobParts s (toStandby s) := by
  unfold toStandby
  dsimp only
  have a : onlyChanges jobParts s (enterStandby (.request 0x07) s) :=
    onlyChanges_mono (enterStandby_frame s _) (by decide)
  exact onlyChanges_ite a (onlyChanges_and (leaveBoring_frame _ _) (onlyChanges_and (takeMode_frame _ _) a))

theorem acknowledge_frame : onlyChanges jobParts s (acknowledge s) := by
  unfold acknowledge
  dsimp only
  have a : onlyChanges jobParts s (s.onMdu fun m => { m with halts := remainingHalts m }) :=
    onlyChanges_mono (onMdu_frame s _) (by decide)
  revert a
  generalize (s.onMdu fun m => { m with halts := remainingHalts m }) = u
  intro a
  have b := onlyChanges_ite (c := haltMember u.mdu .loadTrip = true) a
    (onlyChanges_and (l := jobParts) (onChu_frame u fun c => { c with trip := false }) a)
  revert b
  generalize (if haltMember u.mdu .loadTrip = true then u else u.onChu fun c => { c with trip := false }) = v
  intro b
  have c := onlyChanges_ite (c := haltMember s.mdu .stall = true ∧ ¬ haltMember v.mdu .stall = true)
    (onlyChanges_and (l := jobParts) (releaseStall_frame v) b) b
  exact onlyChanges_ite (onlyChanges_and (changeMode_frame _ _ _) c) c

/-! ## Events at the job units -/

theorem creditedPulse_frame : onlyChanges jobParts s (creditedPulse s) := by
  unfold creditedPulse
  dsimp only
  have a : onlyChanges jobParts s (creditPulse s) := onlyChanges_mono (creditPulse_frame s) (by decide)
  revert a
  generalize creditPulse s = u
  intro a
  exact onlyChanges_and (strokeTest_frame _) (onlyChanges_ite
    (onlyChanges_and (activatePending_frame _) (onlyChanges_and (advanceStep_frame _ u) a)) a)

theorem takePulse_frame (b : Bool) : onlyChanges jobParts s (takePulse b s) := by
  unfold takePulse
  split
  · exact onlyChanges_and (postHaltIf_frame _ _ _) (onlyChanges_mono (reversePulse_frame s) (by decide))
  · exact onlyChanges_mono (repayingPulse_frame s) (by decide)
  · exact creditedPulse_frame s

theorem takeDrive_frame (r : DriveReport) : onlyChanges jobParts s (takeDrive r s) :=
  onlyChanges_and (postHaltIf_frame _ _ _) (onlyChanges_mono (driveReport_frame r s) (by decide))

theorem takeBulkhead_frame (r : BulkheadReport) : onlyChanges jobParts s (takeBulkhead r s) :=
  onlyChanges_and (postHaltIf_frame _ _ _) (onlyChanges_mono (bulkheadReport_frame r s) (by decide))

theorem takeReport_frame (r : Report) : onlyChanges jobParts s (takeReport r s) := by
  unfold takeReport
  split
  · exact takeDrive_frame s _
  · exact takeBulkhead_frame s _
  · exact onlyChanges_and (afterThrust_frame _) (onlyChanges_mono (thrustReport_frame _ _ s) (by decide))
  · exact onlyChanges_mono (erectorReport_frame s _) (by decide)
  · exact onlyChanges_mono (groutReport_frame _ _ s) (by decide)

theorem bulkheadLost_frame : onlyChanges jobParts s (bulkheadLost s) :=
  onlyChanges_and (postHaltIf_frame _ _ _) (onlyChanges_mono (followBlind_frame s) (by decide))

theorem ownerLost_frame (r : Role) : onlyChanges jobParts s (ownerLost r s) := by
  unfold ownerLost
  split
  · exact onlyChanges_and (postHalt_frame _ _) (onlyChanges_mono (stopDrive_frame s) (by decide))
  · exact bulkheadLost_frame s
  · exact onlyChanges_and (afterThrust_frame _) (onlyChanges_mono (thrustLost_frame _ s) (by decide))
  · exact onlyChanges_mono (faultActive_frame s _) (by decide)
  · exact onlyChanges_mono (groutLost_frame _ s) (by decide)

theorem ownerRecovered_frame (r : Role) : onlyChanges [.mdu] s (ownerRecovered r s) := by
  unfold ownerRecovered
  split
  · exact withdrawHalt_frame s _
  all_goals exact onlyChanges_refl _ s

theorem stallExpiry_frame : onlyChanges jobParts s (stallExpiry s) :=
  onlyChanges_and (postHalt_frame _ _) (onlyChanges_mono (stallDrive_frame s) (by decide))

theorem underExpiry_frame : onlyChanges jobParts s (underExpiry s) :=
  onlyChanges_and (postHalt_frame _ _) (onlyChanges_mono (onFcu_frame s _) (by decide))

theorem excavExpiry_frame : onlyChanges jobParts s (excavExpiry s) := by
  unfold excavExpiry
  dsimp only
  exact onlyChanges_and (postHalt_frame _ _) (onlyChanges_and (noticeExcavation_frame _ _)
    (onlyChanges_and (flagWeighing_frame _ _) (onlyChanges_mono (onFcu_frame s _) (by decide))))

theorem standstillExpiry_frame : onlyChanges jobParts s (standstillExpiry s) :=
  onlyChanges_and (changeMode_frame _ _ _) (onlyChanges_mono (onMdu_frame s _) (by decide))

/-! ## Stations -/

/-- The parts that an event on the station link can change: those of an event at a job unit, and SLC. -/
abbrev stationParts : List Part := .slc :: jobParts

theorem noticeStation_frame (i : Fin 13) (p : LinkState) (c : StationCause) :
    onlyChanges [.hlc] s (noticeStation i p c s) := notify_frame s _ _

theorem onStation_frame (i : Fin 13) (f : Station → Station) : onlyChanges [.slc] s (onStation i f s) :=
  onSlc_frame s _

theorem recordHit_frame (i : Fin 13) (r : Report) : onlyChanges stationParts s (recordHit i r s) := by
  unfold recordHit
  dsimp only
  have a : onlyChanges stationParts s (onStation i (fun t => { t with link := .online, misses := 0 }) s) :=
    onlyChanges_mono (onStation_frame s i _) (by decide)
  exact onlyChanges_and (takeReport_frame _ r) (onlyChanges_ite a
    (onlyChanges_and (ownerRecovered_frame _ _) (onlyChanges_and (noticeStation_frame _ i _ _) a)))

theorem recordMiss_frame (i : Fin 13) : onlyChanges stationParts s (recordMiss i s) := by
  unfold recordMiss
  dsimp only
  have a : onlyChanges stationParts s (onStation i (fun t => { t with misses := min 3 ((s.station i).misses + 1) }) s) :=
    onlyChanges_mono (onStation_frame s i _) (by decide)
  exact onlyChanges_ite (onlyChanges_and (ownerLost_frame _ _) (onlyChanges_and (noticeStation_frame _ i _ _)
    (onlyChanges_and (onStation_frame _ i _) a))) a

theorem missVisit_frame : onlyChanges stationParts s (missVisit s) :=
  onlyChanges_and (endVisit_frame _) (onlyChanges_ite (onlyChanges_refl _ s) (recordMiss_frame s _))

theorem completeReply_frame (i : Fin 13) (cs : List Char9) : onlyChanges stationParts s (completeReply i cs s) := by
  unfold completeReply
  split
  · exact missVisit_frame s
  · exact onlyChanges_and (endVisit_frame _) (onlyChanges_ite (onlyChanges_refl _ s) (recordHit_frame s _ _))

theorem takeReplyChars_frame (cs : List Char9) : onlyChanges stationParts s (takeReplyChars cs s) := by
  unfold takeReplyChars
  refine onlyChanges_ite (onlyChanges_refl _ s) ?_
  split
  · exact onlyChanges_mono (onSlc_frame s _) (by decide)
  · exact onlyChanges_mono (onSlc_frame s _) (by decide)
  · exact completeReply_frame s _ _

theorem startListening_frame : onlyChanges [.slc] s (startListening s) := onSlc_frame s _

theorem disableStation_frame (i : Fin 13) : onlyChanges stationParts s (disableStation i s) := by
  unfold disableStation
  dsimp only
  refine onlyChanges_ite (onlyChanges_refl _ s) ?_
  have a := onlyChanges_mono (m := stationParts) (onSlc_frame s fun l =>
    { l with unrecorded := l.unrecorded || (l.phase != .none && visited l == i) }) (by decide)
  revert a
  generalize (s.onSlc fun l => { l with unrecorded := l.unrecorded || (l.phase != .none && visited l == i) }) = u
  intro a
  have b := onlyChanges_and (l := stationParts) (noticeStation_frame _ i (s.station i).link .disable)
    (onlyChanges_and (l := stationParts) (onStation_frame u i fun t =>
      { t with enabled := false, misses := 0, link := if t.link = .online then .lost else t.link }) a)
  exact onlyChanges_ite (onlyChanges_and (ownerLost_frame _ _) b) b

theorem enableStation_frame (i : Fin 13) : onlyChanges [.slc, .hlc] s (enableStation i s) := by
  unfold enableStation
  dsimp only
  refine onlyChanges_ite (onlyChanges_refl _ s) ?_
  have b := onlyChanges_and (l := [.slc, .hlc]) (noticeStation_frame _ i (s.station i).link .enable)
    (onlyChanges_mono (m := [.slc, .hlc])
      (onStation_frame s i fun t => { t with enabled := true, misses := 0 }) (by decide))
  exact onlyChanges_ite (onlyChanges_and (visitNext_frame _ _) b) b

theorem stationRestart_frame : onlyChanges [.slc] s (stationRestart s) :=
  onlyChanges_and (visitNext_frame _ _) (onSlc_frame s _)

/-! ## Geometry and restart -/

theorem takeGeometry_frame (g : Geometry) :
    onlyChanges [.pfs, .rgu, .adv, .mdu, .thu, .gru, .hlc, .fcu, .chu] s (takeGeometry g s) := by
  unfold takeGeometry
  dsimp only
  exact onlyChanges_and (cutterGeometry_frame _) (onlyChanges_and (thrustGeometry_frame _ _)
    (onlyChanges_and (groutGeometry_frame _ _ _) (onlyChanges_and (faceGeometry_frame _ _)
      (onlyChanges_and (advanceGeometry_frame _) (onlyChanges_and (reopenRing_frame _ _)
        (onlyChanges_mono (onPfs_frame s _) (by decide)))))))

theorem restartUnits_frame : onlyChanges stationParts s (restartUnits s) := by
  unfold restartUnits
  dsimp only
  exact onlyChanges_and (leaveBoring_frame _ _) (onlyChanges_and (stationRestart_frame _)
    (onlyChanges_and (buildRestart_frame _) (onlyChanges_and (returnAll_frame _)
      (onlyChanges_and (stopAllInjecting_frame _) (onlyChanges_and (faceRestart_frame _)
        (onlyChanges_and (stopDrive_frame _) (onlyChanges_and (thrustRestart_frame _)
          (onlyChanges_mono (enterStandby_frame s _) (by decide)))))))))

end

end Sys2Proof.Machine
end

