-- ==== Sys2Proof/Laws/Requests.lean ====
section
/-! SUPPORT. Requests: when one is taken, and what its answer does to the host link. -/

set_option Elab.async false

namespace Sys2Proof.Machine

/-- A request that HLC takes reaches its unit with the request in process. -/
theorem takeRequest_of_takes {i : Instr} {s : State} (h : takes i s) (body : State → State) :
    takeRequest i body s = body (startRequest s) := by
  obtain ⟨c, hq | ⟨f, fs, hq, hr⟩⟩ := h
  · simp [takeRequest, c, hq]
  · simp [takeRequest, c, hq, hr]

/-- Taking a request changes the host link alone. -/
theorem startRequest_frame (s : State) : onlyChanges [.hlc] s (startRequest s) := onHlc_frame s _

@[simp] theorem startRequest_sending (s : State) : (startRequest s).hlc.sending = s.hlc.sending := rfl
@[simp] theorem startRequest_replies (s : State) : (startRequest s).hlc.replies = s.hlc.replies := rfl
@[simp] theorem startRequest_notices (s : State) : (startRequest s).hlc.notices = s.hlc.notices := rfl
@[simp] theorem startRequest_queue (s : State) : (startRequest s).hlc.queue = s.hlc.queue.drop 1 := rfl
@[simp] theorem startRequest_outgoing (s : State) : outgoing (startRequest s) = outgoing s := rfl

@[simp] theorem reply_queue (k : Nat) (tag : Byte) (r : Result) (d : List Field) (s : State) :
    (reply k tag r d s).hlc.queue = s.hlc.queue := rfl
@[simp] theorem reply_inProcess (k : Nat) (tag : Byte) (r : Result) (d : List Field) (s : State) :
    (reply k tag r d s).hlc.inProcess = false := rfl
@[simp] theorem reply_sending (k : Nat) (tag : Byte) (r : Result) (d : List Field) (s : State) :
    (reply k tag r d s).hlc.sending = s.hlc.sending := rfl

@[simp] theorem pump_queue (s : State) : (pump s).hlc.queue = s.hlc.queue := by
  unfold pump; split <;> [rfl; split <;> rfl]

@[simp] theorem pump_inProcess (s : State) : (pump s).hlc.inProcess = s.hlc.inProcess := by
  unfold pump; split <;> [rfl; split <;> rfl]

/-- A reply goes out after all that went out before it. -/
theorem reply_outgoing (k : Nat) (tag : Byte) (r : Result) (d : List Field) (s : State) :
    outgoing (pump (reply k tag r d s))
      = outgoing s ++ [replyFrame (BitVec.ofNat 8 k) tag r (fieldBytes d)] := by
  rw [pump_outgoing]
  · simp [outgoing, reply]
  · left; simp [reply]

/-- The answer to a request whose unit has changed nothing of the host link but its notices. -/
theorem answered_reply {s u : State} (k : Nat) (tag : Byte) (r : Result) (d : List Field)
    (ho : outgoing u = outgoing s) (hq : u.hlc.queue = s.hlc.queue.drop 1) :
    answered k tag r d s (pump (reply k tag r d u)) :=
  ⟨by rw [reply_outgoing, ho], by simp [hq], by simp⟩

end Sys2Proof.Machine
end

