-- ==== Sys2Proof/Tests/Slice0.lean ====
section
/-! SUPPORT. Tests of single steps against the manual's own tables and worked examples, the smoke of
well-formedness, and, for every statement with hypotheses, states and operands that meet them. -/

namespace Sys2Proof.Tests
open Sys2Proof.Machine

set_option Elab.async false

/-! ## Small states -/

/-- The state after one command. -/
def after (i : Instr) (s : State) : State :=
  match exec i s with
  | .next t => t
  | .fault _ => s
  | .refused _ => s

/-- The payload of the last reply that a request forms. -/
def answer (i : Instr) (s : State) : List Byte :=
  match (outgoing (after i s)).getLast? with
  | some f => f.payload
  | none => []

/-- The settings of the worked cases of chapters 1, 3, 4 and 5. -/
def geo : Geometry :=
  { faceArea := 708822, gapArea := 44061, ringLength := 15000, strokeMargin := 1000, segmentsPerRing := 7,
    lineWeight := #v[48, 40, 40, 40, 40, 48], strokeVolume := Vector.replicate 6 600, beltMassPerPulse := 5000,
    beltTransit := 180, ratedTorque := 8000, pairMaxPressure := 22000 }

/-- Profile B of worked case 1. -/
def profileB : Profile :=
  { Profile.default with quantum := 37, bankDensity := 2050, conditioning := 120, fillFactor := 130 }

/-- A pair that thrusts. -/
def thrusting : Pair :=
  { state := .thrusting, tag := none, commanded := 3000, lastPressure := some 3000, lastClear := some false,
    lastStatus := some .ok }

/-- A line in service. -/
def lineOf (weight : Nat) (state : LineState) (owed : Int) : Line :=
  { Line.reset with state := state, configured := some weight, effective := weight, owed := owed }

/-- STANDBY with the geometry set, every station ONLINE, every pair thrusting and every line IDLE. -/
def standby : State :=
  { State.reset with
    pfs := { geometry := some geo, profiles := #v[Profile.default, profileB, Profile.default, Profile.default],
             active := .a, next := none }
    thu := { Thu.reset with pairs := Vector.replicate 16 thrusting }
    chu := { Chu.reset with ceiling := 8800 }
    fcu := { Fcu.reset with faceBlind := false }
    gru := { Gru.reset with lines := geo.lineWeight.map fun w => lineOf w .idle 0, nonePosted := false }
    mdu := { Mdu.reset with holds := Vector.replicate 8 false }
    slc := { Slc.reset with stations := Vector.replicate 13 { enabled := true, link := .online, misses := 0 } }
    hlc := { Hlc.reset with notices := [] } }

/-- The same machine in another mode. -/
def inMode (m : Mode) : State :=
  { standby with mdu := { standby.mdu with mode := m } }

/-- READY. -/
def ready : State := inMode .ready

/-- BORING, with advance permitted. -/
def boring : State :=
  { standby with mdu := { standby.mdu with mode := .boring, permitted := true, advPermit := true }
                 thu := { standby.thu with pairs := Vector.replicate 16 { thrusting with commanded := 0 } } }

/-- HALTED by STALL, removable, and LOAD_TRIP, not removable. -/
def halted : State :=
  { standby with mdu := { standby.mdu with
      mode := .halted, haltOut := true,
      halts := ((Vector.replicate 8 none).set HaltCause.stall.index (some true)).set HaltCause.loadTrip.index
        (some false) } }

/-- The state with a plan that waits at slot 0 for stroke 100. -/
def waiting (s : State) : State :=
  { s with bld := { s.bld with
      table := s.bld.table.set 0 { PlanStep.default with kind := .awaitStroke, stroke := 100 }
      plan := .waiting, flight := .stroke, stepTimer := .running 5000 } }

/-! ## Well-formedness: an ill-formed term for each check, and the bound that passes -/

theorem test_wellFormed_refuses :
    ([Instr.hostFrameReceived { kind := 0, tag := 0, payload := List.replicate 201 0 }, .stationReply [],
      .releaseTimerExpiry 0, .releaseTimerExpiry 3, .reseatTimerExpiry 3, .idleTimerExpiry 6, .holdTimerExpiry 6,
      .flushTimerExpiry 6, .getStatus 0 256, .setGeometry 0 { geo with segmentsPerRing := 256 },
      .writeProfile 0 256 profileB, .writeProfile 0 1 { profileB with quantum := 65536 }, .readProfile 0 256,
      .selectProfile 0 256, .setMode 0 256, .hold 0 256, .cutterhead 0 65536 0, .cutterhead 0 0 256,
      .steer 0 65536 0 0 0, .steer 0 0 65536 0 0, .steer 0 0 0 65536 0, .steer 0 0 0 0 65536,
      .chamberTrim 0 32768, .chamberTrim 0 (-32769), .writeStep 0 256 ⟨0, 0, 0, 1, 0, 0, 0, 0⟩,
      .writeStep 0 0 ⟨0, 0, 0, 1, 0, 65536, 0, 0⟩, .readStep 0 256, .buildStart 0 256, .recordSegment 0 256 0 1,
      .recordSegment 0 0 256 1, .recordSegment 0 0 0 256, .groutLineFlush 0 256 0, .groutLineFlush 0 0 256,
      .groutLineFlush 0 0 1, .groutLineFlush 0 0 2, .groutLineIsolate 0 256, .groutLineReinstate 0 256,
      .pairReinstate 0 256, .stationEnable 0 256 0, .stationEnable 0 0 256, .setLinkTiming 0 256,
      .setRingNumber 0 65536, .getLogEntry 0 65536].all fun i => !i.wellFormed) = true := by decide +kernel

theorem test_wellFormed_accepts :
    ([Instr.hostFrameReceived { kind := 0, tag := 0, payload := List.replicate 200 0 }, .stationReply [0],
      .releaseTimerExpiry 1, .reseatTimerExpiry 2, .idleTimerExpiry 5, .getStatus 0 255, .setGeometry 0 geo,
      .writeProfile 0 1 profileB, .cutterhead 0 65535 255, .chamberTrim 0 (-32768), .setRingNumber 0 65535,
      .groutLineFlush 0 255 3, .stop 0].all Instr.wellFormed) = true := by decide +kernel

/-! ## Decoding: frames written out from section 11.4 and R201 -/

/-- The check value of the CRC-16 of R177 over the digits 1 to 9. -/
theorem test_crc_of_digits :
    crc16 [0x31, 0x32, 0x33, 0x34, 0x35, 0x36, 0x37, 0x38, 0x39] = 0x29B1#16 := by decide +kernel

/-- The fixed payload lengths of R201: 45 bytes of geometry, a name and 96 bytes of profile, a slot and 10 bytes of
step. -/
theorem test_request_lengths :
    [0x01, 0x02, 0x03, 0x04, 0x07, 0x09, 0x0B, 0x0C, 0x0D, 0x0E, 0x14, 0x15, 0x17, 0x19, 0x1D, 0x1E].map requestLength
      = [some 1, some 45, some 0, some 97, some 1, some 0, some 3, some 8, some 2, some 11, some 3, some 2, some 2,
         some 2, some 0, none] := by decide

theorem test_requests_decode :
    requestOf ⟨0x0B, 7, [0x02, 0x58, 0x01]⟩ = some (.cutterhead 7 600 1)
    ∧ requestOf ⟨0x0C, 7, [0x13, 0x88, 0x36, 0xB0, 0x44, 0x5C, 0x00, 0x01]⟩ = some (.steer 7 5000 14000 17500 1)
    ∧ requestOf ⟨0x0D, 7, [0xFF, 0x9C]⟩ = some (.chamberTrim 7 (-100))
    ∧ requestOf ⟨0x0E, 7, [3, 4, 2, 15, 6, 127, 0x75, 0x30, 0x02, 0x58, 1]⟩
        = some (.writeStep 7 3 ⟨4, 2, 15, 6, 127, 30000, 600, 1⟩)
    ∧ requestOf ⟨0x19, 7, [0x01, 0x9C]⟩ = some (.setRingNumber 7 412)
    ∧ requestOf ⟨0x07, 7, [2]⟩ = some (.setMode 7 2) ∧ requestOf ⟨0x1D, 7, []⟩ = some (.restart 7) := by decide

/-- The action of a GROUT_LINE request chooses the command; STATION_ENABLE carries the address first. -/
theorem test_line_and_station_requests_decode :
    requestOf ⟨0x15, 7, [2, 0]⟩ = some (.groutLineFlush 7 2 0)
    ∧ requestOf ⟨0x15, 7, [2, 1]⟩ = some (.groutLineIsolate 7 2)
    ∧ requestOf ⟨0x15, 7, [2, 2]⟩ = some (.groutLineReinstate 7 2)
    ∧ requestOf ⟨0x15, 7, [2, 3]⟩ = some (.groutLineFlush 7 2 3)
    ∧ requestOf ⟨0x17, 7, [11, 1]⟩ = some (.stationEnable 7 11 1) ∧ requestOf ⟨0x07, 7, []⟩ = none
    ∧ requestOf ⟨0x1E, 7, []⟩ = none := by decide

/-- A GROUT report and a THRUST report byte by byte (R201). -/
theorem test_reports_decode :
    reportOf (.grout 3) [0x01, 0xC2, 0x00, 0x0E, 0x01] = .grout 3 ⟨450, 14, true, false⟩
    ∧ reportOf (.thrust 1) [0x0B, 0xB8, 0, 1, 0, 2, 0, 3, 0x81]
        = .thrust 1 #v[(3000, true, .ok), (1, false, .ok), (2, false, .ok), (3, false, .fault)]
    ∧ reportOf .drive [0x01, 0xC1, 0x01, 0x29, 0x40] = .drive ⟨449, .ccw, 10560⟩ := by decide +kernel

/-- The manual gives the commands no bits, so no word spells one. -/
theorem test_no_word_spells_a_command :
    decodeTableWord 8 0x0B = none ∧ (State.reset.withFetchWord 8 0x0B).pending = [] := by decide

/-! ## Advance: worked case 1 -/

/-- Worked case 1 before its 37th pulse. -/
def caseOne : State :=
  { boring with
    pfs := { boring.pfs with active := .b }
    adv := { boring.adv with stroke := 36, acc := 36 }
    rgu := { boring.rgu with current := RingRecord.opened 412 36 .b }
    gru := { boring.gru with figuresRing := 412 } }

theorem test_step_one_of_worked_case :
    (after (.advPPulse true) caseOne).adv
        = { stroke := 37, acc := 0, debt := 0, remVolume := 14, remMass := 144000,
            remGrout := #v[1923680, 1176400, 1176400, 1176400, 1176400, 1923680], serial := 1 }
    ∧ (after (.advPPulse true) caseOne).fcu.transit
        = [{ serial := 1, ring := 412, mass := 602158, time := 0, age := .running 180000 }]
    ∧ (after (.advPPulse true) caseOne).gru.lines.toList.map (fun l => (l.owed, l.accrued))
        = [(3973, 3973), (3311, 3311), (3311, 3311), (3311, 3311), (3311, 3311), (3973, 3973)]
    ∧ (after (.advPPulse true) caseOne).gru.lines.toList.all (fun l => l.state == .injecting) = true := by
  decide +kernel

theorem test_step_two_of_worked_case :
    (after (.advPPulse true) { after (.advPPulse true) caseOne with
        adv := { (after (.advPPulse true) caseOne).adv with stroke := 73, acc := 36 } }).adv
      = { stroke := 74, acc := 0, debt := 0, remVolume := 28, remMass := 288000,
          remGrout := #v[1287360, 2352800, 2352800, 2352800, 2352800, 1287360], serial := 2 } := by decide +kernel

/-- Worked case 1 with the pulse that makes its stroke n, and the ring built or not. -/
def caseAt (n : Nat) (built : Bool) : State :=
  { caseOne with
    adv := { caseOne.adv with stroke := n - 1 }
    rgu := { caseOne.rgu with current := { caseOne.rgu.current with buildDone := built } } }

/-- The bounds of R11 and R142: ring_length 15,000 and stroke_margin 1,000. -/
theorem test_stroke_bounds :
    let s (n : Nat) (built : Bool) := after (.advPPulse true) (caseAt n built)
    ([s 14999 true, s 15000 true, s 15000 false, s 15999 false, s 16000 false].map fun s =>
        (s.rgu.current.number, s.adv.stroke, s.rgu.current.strokeDone, s.mdu.holds[4]))
      = [(412, 14999, false, false), (413, 0, false, false), (412, 15000, true, false), (412, 15999, true, false),
         (412, 16000, true, true)]
    ∧ (s 15000 true).rgu.log.map (fun e => (e.record.number, e.strokeAtClose)) = [(412, 15000)] := by decide +kernel

/-- The push-back of worked case 1, and a rollback above the limit, which halts. -/
theorem test_reverse_pulses :
    (after (.advPPulse false) caseOne).adv = { caseOne.adv with debt := 1 }
    ∧ (after (.advPPulse false) caseOne).rgu.current.flags.rollbackSeen = true
    ∧ (after (.advPPulse false) { caseOne with adv := { caseOne.adv with debt := 499 } }).mdu.mode = .boring
    ∧ (after (.advPPulse false) { caseOne with adv := { caseOne.adv with debt := 500 } }).mdu.halts[2] = some false
    ∧ (after (.advPPulse true) { caseOne with adv := { caseOne.adv with debt := 6 } }).adv
        = { caseOne.adv with debt := 5 } := by decide +kernel

/-! ## Thrust: worked example 2.1 -/

/-- Pair 7 faulted, and the host steers as in the example. -/
def shortGroup : State :=
  { boring with thu := { boring.thu with
      pairs := boring.thu.pairs.set 7 { thrusting with state := .faulted .stationFault, commanded := 0 } } }

theorem test_short_group_is_limited_and_timed :
    (after (.steer 1 5000 14000 17500 14000) shortGroup).thu.pairs.toList.map (·.commanded)
      = [5000, 5000, 14000, 14000, 14000, 14000, 22000, 0, 22000, 22000, 14000, 14000, 14000, 14000, 5000, 5000]
    ∧ (after (.steer 1 5000 14000 17500 14000) shortGroup).thu.groupTimer = .running 10000
    ∧ (after (.steer 1 5000 14000 16000 14000) shortGroup).thu.pairs[6].commanded = 21334
    ∧ (after (.steer 1 5000 14000 16000 14000) shortGroup).thu.groupTimer = .stopped
    ∧ answer (.steer 1 5000 14000 22001 0) shortGroup = [0x01, 0x13, 0x88, 0x36, 0xB0, 0x55, 0xF0, 0, 0] := by
  decide +kernel

theorem test_group_short_withholds_advance :
    (after .groupShortTimerExpiry (after (.steer 1 5000 14000 17500 14000) shortGroup)).mdu.permitted = false
    ∧ (after .groupShortTimerExpiry (after (.steer 1 5000 14000 17500 14000) shortGroup)).thu.pairs[0].commanded = 3000
    ∧ (after .groupShortTimerExpiry boring) = boring := by decide +kernel

/-- A thrust station's pairs in an arc that is releasing, and the arc timers. -/
def releasing : State :=
  { boring with
    thu := { boring.thu with
      pairs := boring.thu.pairs.set 0 { thrusting with state := .releasing, tag := some 1, commanded := 0 }
      arcs := [{ id := 1, start := 0, width := 1, phase := .withdrawing, release := .running 20000,
                 reseat := .stopped, placed := false, byBld := true }] }
    bld := { boring.bld with
      table := boring.bld.table.set 0 { PlanStep.default with kind := .withdraw }
      plan := .running, flight := .release 1, stepTimer := .running 90000
      arcs := [{ id := 1, start := 0, width := 1, phase := .withdrawing, placed := false }] } }

/-- An arc in its reseat, for no requester. -/
def reseating : State :=
  { boring with thu := { boring.thu with
      pairs := boring.thu.pairs.set 0 { thrusting with state := .reseating, tag := some 1 }
      arcs := [{ id := 1, start := 0, width := 1, phase := .reseating, release := .stopped,
                 reseat := .running 20000, placed := false, byBld := false }] } }

theorem test_arc_timers :
    (after (.releaseTimerExpiry 1) releasing).bld.plan = .faulted .releaseTimeout
    ∧ (after (.releaseTimerExpiry 1) releasing).thu.pairs[0].state = .reseating
    ∧ (after (.reseatTimerExpiry 1) reseating).thu.arcs.map (·.reseat) = [.expired]
    ∧ (after (.releaseTimerExpiry 2) releasing) = releasing := by decide +kernel

/-- A THRUST report completes the release of the one arc and the reseat of the other (R31, R34). -/
theorem test_thrust_reports_complete_arcs :
    let e (pressure : Nat) (isClear : Bool) : Vector (Nat × Bool × PairStatus) 4 :=
      #v[(pressure, isClear, .ok), (3000, false, .ok), (3000, false, .ok), (3000, false, .ok)]
    (takeReport (.thrust 0 (e 0 true)) releasing).thu.arcs.map (fun a => (a.phase, a.release)) = [(.withdrawn, .stopped)]
    ∧ (takeReport (.thrust 0 (e 0 true)) releasing).bld.arcs.map (·.phase) = [.withdrawn]
    ∧ (takeReport (.thrust 0 (e 3000 false)) reseating).thu.arcs = []
    ∧ (takeReport (.thrust 0 (e 3000 false)) reseating).pair 0 = { thrusting with commanded := 0 }
    ∧ (takeReport (.thrust 0 (e 2999 false)) reseating).thu.arcs = reseating.thu.arcs := by decide +kernel

/-- A plan at a RESEAT with overlap whose arc is FAULTED throughout, with a WITHDRAW after it. -/
def overlapping : State :=
  { boring with
    thu := { boring.thu with
      pairs := boring.thu.pairs.set 0 { thrusting with state := .faulted .stationFault, tag := some 1 }
      arcs := [{ id := 1, start := 0, width := 1, phase := .withdrawn, release := .stopped, reseat := .stopped,
                 placed := true, byBld := true }] }
    bld := { boring.bld with
      table := (boring.bld.table.set 0 { PlanStep.default with kind := .reseat, overlap := true }).set 1
        { PlanStep.default with kind := .withdraw, position := 8, width := 2 }
      plan := .paused .host, lastPlaced := some 1
      arcs := [{ id := 1, start := 0, width := 1, phase := .withdrawn, placed := true }] } }

/-- The background reseat is over at once, and the WITHDRAW in the same chain takes the freed identifier (R28, R34,
R122). -/
theorem test_freed_identifier_is_granted_again :
    let s := after (.buildResume 1) overlapping
    s.bld.arcs = [{ id := 1, start := 8, width := 2, phase := .withdrawing, placed := false }]
    ∧ (s.bld.background, s.bld.lastPlaced, s.bld.flight, s.bld.slot) = (none, none, .release 1, 1)
    ∧ s.thu.arcs.map (fun a => (a.id, a.start)) = [(1, 8)] := by decide +kernel

theorem test_pair_reinstate :
    answer (.pairReinstate 1 16) boring = [0x11, 1, 0] ∧ answer (.pairReinstate 1 15) boring = [0x10, 0, 0]
    ∧ (after (.pairReinstate 1 7) shortGroup).thu.pairs[7].state = .reseating := by decide +kernel

/-! ## Cutterhead: worked case 2 and example 3.2 -/

theorem test_load_index_of_worked_case :
    relativeTorque 10400 8000 = 130 ∧ nextLoadIndex 9000 130 256 = 9030 ∧ nextLoadIndex 9000 130 512 = 9015
    ∧ nextLoadIndex 9060 130 512 = 9075 ∧ nextLoadIndex 9005 80 512 = 9000 := by decide +kernel

/-- The drive turning at 450, with H at 12,090. -/
def turning : State :=
  { boring with
    chu := { boring.chu with
      drive := .turning, hostSpeed := 450, applied := 450, loadIndex := 12090, last := some ⟨450, .cw, 8000⟩ }
    mdu := { boring.mdu with driveStopped := false } }

theorem test_zone_entry_of_example :
    (driveReport ⟨449, .cw, 10560⟩ turning).chu
      = { turning.chu with drive := .ramping, applied := 150, loadIndex := 12100, loadRatio := some 132, zone := true,
                           ceiling := 7200, rampOrigin := 449, last := some ⟨449, .cw, 10560⟩ } := by decide +kernel

/-- The rows of the table of R47. -/
theorem test_target_changes_of_table :
    let drive (d : DriveState) (v : Nat) (dir : Direction) :=
      (setHostTarget v dir { turning with chu := { turning.chu with drive := d } }).chu.drive
    [drive .turning 0 .cw, drive .turning 300 .cw, drive .ramping 300 .ccw, drive .reversing 0 .cw,
     drive .reversing 300 .cw, drive .reversing 300 .ccw, drive .stalled 300 .cw, drive .stopped 0 .cw,
     drive .stopped 300 .ccw, drive .turning 450 .cw]
      = [.ramping, .ramping, .reversing, .ramping, .ramping, .reversing, .stalled, .stopped, .ramping, .turning] := by
  decide +kernel

theorem test_cutterhead_request :
    answer (.cutterhead 1 600 1) boring = [0x00, 0x02, 0x58, 1, 0x02, 0x58, 0, 1]
    ∧ answer (.cutterhead 1 601 1) boring = [0x11, 1, 0] ∧ answer (.cutterhead 1 600 2) boring = [0x11, 2, 0]
    ∧ answer (.cutterhead 1 1 0) ready = [0x10, 0, 0]
    ∧ (after (.cutterhead 1 1 0) (inMode .standstill)).mdu.mode = .boring := by decide +kernel

/-! ## Face: worked examples 4.1 and 4.2 -/

/-- A report of example 4.1. -/
def faceReport (axis bin : Nat) : BulkheadReport := ⟨⟨190, true⟩, ⟨axis, true⟩, ⟨300, true⟩, 0, bin⟩

/-- The regulator of example 4.1 before its first report. -/
def regulating : State :=
  { boring with fcu := { boring.fcu with regulator := .regulating, screw := 120, gateOpen := true, trim := 20 } }

theorem test_bin_fills_while_boring :
    let s4 := bulkheadReport (faceReport 280 86) (bulkheadReport (faceReport 275 79)
      (bulkheadReport (faceReport 283 74) (bulkheadReport (faceReport 296 70) regulating)))
    let s6 := bulkheadReport (faceReport 341 60) (bulkheadReport (faceReport 335 88) s4)
    let s7 := bulkheadReport (faceReport 318 52) s6
    (s4.fcu.screw, s4.fcu.binHalt, s4.mdu.permitted) = (30, true, false)
    ∧ (s6.fcu.screw, s6.fcu.binHalt, s6.fcu.chamberHigh) = (40, false, true)
    ∧ (s7.fcu.screw, s7.fcu.chamberHigh, s7.mdu.permitted) = (50, false, true) := by decide +kernel

/-- A crown below crown_min closes the gate and starts the under-support timer, whose expiry halts. -/
theorem test_under_support :
    let s := bulkheadReport ⟨⟨140, true⟩, ⟨280, true⟩, ⟨300, true⟩, 0, 86⟩ regulating
    (s.fcu.screw, s.fcu.gateOpen, s.fcu.under, s.fcu.underTimer) = (0, false, .qualifying, .running 5000)
    ∧ (after .underTimerExpiry s).mdu.mode = .halted
    ∧ (after .underTimerExpiry s).mdu.halts[5] = some false := by decide +kernel

/-- The report that ends the condition leaves the screw at 0; the next one regulates (R70). -/
theorem test_regulation_resumes_at_the_next_report :
    let s1 := bulkheadReport ⟨⟨140, true⟩, ⟨280, true⟩, ⟨300, true⟩, 0, 50⟩ regulating
    let s2 := bulkheadReport (faceReport 335 50) s1
    (s2.fcu.under, s2.fcu.screw) = (.clear, 0) ∧ 0 < (bulkheadReport (faceReport 335 50) s2).fcu.screw := by
  decide +kernel

/-- Example 4.2 before the second release: ring 412 closed and in the log, ring 413 open. -/
def weighing : State :=
  { boring with
    rgu := { current := RingRecord.opened 413 0 .a,
             log := [{ record := RingRecord.opened 412 15000 .a, strokeAtClose := 15000, figures := none,
                       settled := none }] }
    fcu := { boring.fcu with
      weighing := some 412, due := 242667675, measured := 241925000
      transit := [{ serial := 404, ring := 413, mass := 602158, time := 0, age := .running 180000 }] } }

theorem test_change_of_weighing_ring :
    (after .ageTimerExpiry weighing).rgu.log.map LogEntry.settled
        = [some { expected := 242667675, measured := 241925000, ratio := some 996 }]
    ∧ (after .ageTimerExpiry weighing).fcu
        = { weighing.fcu with weighing := some 413, due := 602158, measured := 0, transit := [] }
    ∧ (after .ageTimerExpiry weighing).rgu.current.measured = some 0
    ∧ (after .beltPPulse weighing).fcu.measured = 241930000 := by decide +kernel

theorem test_chamber_trim :
    answer (.chamberTrim 1 100) boring = [0x00, 100, 0x01, 0x5E]
    ∧ answer (.chamberTrim 1 (-32768)) boring = [0x01, 0x9C, 0x00, 0x96]
    ∧ (after (.chamberTrim 1 (-101)) boring).fcu.trim = -100 := by decide +kernel

/-! ## Grout: worked case 1, continued -/

/-- The lines of the worked case when line 1's idle timer runs. -/
def blockage : State :=
  { boring with gru := { boring.gru with
      lines := #v[lineOf 48 .injecting 1347, { lineOf 40 .injecting 2422 with idleTimer := .running 30000 },
                  lineOf 40 .injecting 1222, lineOf 40 .injecting 622, lineOf 40 .injecting 622,
                  lineOf 48 .injecting 747] } }

theorem test_line_blocks :
    (after (.idleTimerExpiry 1) blockage).gru.lines.toList.map (fun l => (l.state, l.owed, l.effective))
      = [(.injecting, 2558, 68), (.blocked, 0, 0), (.injecting, 2433, 60), (.injecting, 622, 40),
         (.injecting, 622, 40), (.injecting, 747, 48)] := by decide +kernel

/-- The worked case after step 3: line 2 is isolated, then line 1 flushed and returned. -/
def isolation : State :=
  { boring with gru := { boring.gru with
      lines := #v[lineOf 68 .injecting 8187, { lineOf 40 .blocked 0 with effective := 0 }, lineOf 60 .injecting 7401,
                  lineOf 40 .injecting 3934, lineOf 40 .injecting 3934, lineOf 48 .injecting 4721].mapFinIdx
        fun i l _ => { l with configured := some (if i = 0 ∨ i = 5 then 48 else 40) } } }

theorem test_line_is_isolated :
    (after (.groutLineIsolate 1 2) isolation).gru.lines.toList.map (fun l => (l.state, l.owed, l.effective))
      = [(.injecting, 11887, 88), (.blocked, 0, 0), (.isolated .host, 0, 0), (.injecting, 7635, 80),
         (.injecting, 3934, 40), (.injecting, 4721, 48)] := by decide +kernel

theorem test_line_is_flushed_and_returns :
    let s := after (.groutLineFlush 1 1 0) (after (.groutLineIsolate 1 2) isolation)
    (s.line 1).flushTimer = .running 120000
    ∧ (after (.flushTimerExpiry 1) s).gru.lines.toList.map (fun l => l.effective) = [48, 60, 0, 60, 40, 48]
    ∧ ((after (.flushTimerExpiry 1) s).line 1).state = .idle
    ∧ answer (.groutLineFlush 1 3 0) s = [0x10, 0, 0] ∧ answer (.groutLineFlush 1 1 0) s = [0x12]
    ∧ answer (.groutLineFlush 1 6 0) s = [0x11, 1, 0] ∧ answer (.groutLineFlush 1 5 3) s = [0x11, 2, 0]
    ∧ answer (.groutLineReinstate 1 2) s = [0x00, 0, 0, 0, 0, 0] := by decide +kernel

/-! ## Build -/

theorem test_write_step_ranges :
    let w (n : Nat) (e : StepFields) := answer (.writeStep 1 n e) boring
    [w 127 ⟨8, 2, 15, 6, 127, 30000, 600, 1⟩, w 128 ⟨0, 0, 0, 1, 0, 0, 0, 0⟩, w 0 ⟨9, 0, 0, 1, 0, 0, 0, 0⟩,
     w 0 ⟨0, 3, 0, 1, 0, 0, 0, 0⟩, w 0 ⟨0, 0, 16, 1, 0, 0, 0, 0⟩, w 0 ⟨0, 0, 0, 0, 0, 0, 0, 0⟩,
     w 0 ⟨0, 0, 0, 7, 0, 0, 0, 0⟩, w 0 ⟨0, 0, 0, 1, 128, 0, 0, 0⟩, w 0 ⟨0, 0, 0, 1, 0, 30001, 0, 0⟩,
     w 0 ⟨0, 0, 0, 1, 0, 0, 601, 0⟩, w 0 ⟨0, 0, 0, 1, 0, 0, 0, 2⟩]
      = [[0], [0x11, 1, 0], [0x11, 2, 0], [0x11, 3, 0], [0x11, 4, 0], [0x11, 5, 0], [0x11, 5, 0], [0x11, 6, 0],
         [0x11, 7, 0], [0x11, 8, 0], [0x11, 9, 0]] := by decide +kernel

theorem test_plan_requests :
    (after (.buildStart 1 0) (waiting boring)) = after (.buildStart 1 127) (waiting boring)
    ∧ answer (.buildStart 1 128) boring = [0x11, 1, 0] ∧ answer (.buildStart 1 0) ready = [0x10, 0, 0]
    ∧ (after (.buildStart 1 127) boring).bld.plan = .faulted .buildIncomplete
    ∧ (after (.buildPause 1) (waiting boring)).bld.plan = .paused .host
    ∧ (after (.buildResume 1) (after (.buildPause 1) (waiting boring))).bld.plan = .waiting
    ∧ (after (.buildAbort 1) (waiting boring)).bld.plan = .faulted .aborted
    ∧ (after .stepTimerExpiry (waiting boring)).bld.plan = .faulted .stepTimeout := by decide +kernel

theorem test_record_segment :
    (after (.recordSegment 1 0 15 6) standby).rgu.current.segments = [⟨1, .standard, 15, 6, .manual⟩]
    ∧ answer (.recordSegment 1 2 0 1) standby = [0x10, 2, 0] ∧ answer (.recordSegment 1 3 0 1) standby = [0x11, 1, 0]
    ∧ answer (.recordSegment 1 0 16 1) standby = [0x11, 2, 0] ∧ answer (.recordSegment 1 0 0 7) standby = [0x11, 3, 0]
    ∧ answer (.recordSegment 1 0 0 0) standby = [0x11, 3, 0]
    ∧ answer (.recordSegment 1 0 0 1) State.reset = [0x10, 0, 0] := by decide +kernel

/-! ## Settings, modes, holds and halts -/

theorem test_geometry_checks :
    answer (.setGeometry 1 geo) boring = [0x10, 0, 0] ∧ answer (.setGeometry 1 geo) standby = [0x00]
    ∧ answer (.setGeometry 1 { geo with lineWeight := #v[48, 40, 40, 40, 40, 47] }) standby = [0x11, 11, 2]
    ∧ (after (.setGeometry 1 geo) State.reset).geometry = some geo := by decide +kernel

theorem test_profiles :
    answer (.selectProfile 1 1) boring = [0x00, 1, 0, 1] ∧ answer (.selectProfile 1 4) boring = [0x11, 1, 0]
    ∧ (after (.selectProfile 1 1) ready).pfs.active = .b ∧ answer (.writeProfile 1 0 profileB) boring = [0x10, 0, 0]
    ∧ answer (.writeProfile 1 2 { profileB with quantum := 9 }) boring = [0x11, 1, 0]
    ∧ (after (.writeProfile 1 2 profileB) boring).pfs.profiles[2] = profileB := by decide +kernel

theorem test_mode_requests :
    answer (.setMode 1 1) State.reset = [0x10, 1, 0]
    ∧ (after (.setMode 1 1) standby).mdu.mode = .ready ∧ (after (.setMode 1 2) ready).mdu.permitted = true
    ∧ answer (.setMode 1 3) boring = [0x11, 1, 0] ∧ answer (.setMode 1 1) halted = [0x10, 0, 0]
    ∧ (after (.setMode 1 0) halted).mdu.halts = Vector.replicate 8 none := by decide +kernel

theorem test_hold_and_stop :
    answer (.hold 1 0) boring = [0x00, 0x80, 1] ∧ answer (.hold 1 2) boring = [0x11, 1, 0]
    ∧ answer (.stop 1) boring = [0x00, 4, 0x80, 0x80] ∧ answer (.stop 1) standby = [0x10, 0, 0]
    ∧ (after (.ackHalt 1) (after (.stop 1) boring)).mdu.mode = .ready
    ∧ answer (.ackHalt 1) halted = [0x00, 0x01, 0x02, 0x00, 4] := by decide +kernel

/-! ## Rings, stations and the host link -/

/-- An open record without segments and changes takes 26 bytes, and GET_RING adds 5 (section 11.5). -/
theorem test_ring_requests :
    answer (.setRingNumber 1 412) standby = [0x00, 0x01, 0x9C] ∧ answer (.setRingNumber 1 0) standby = [0x11, 1, 0]
    ∧ answer (.setRingNumber 1 412) { weighing with mdu := standby.mdu } = [0x11, 1, 3]
    ∧ answer (.setRingNumber 1 412) boring = [0x10, 0, 0] ∧ answer (.getLogEntry 1 411) weighing = [0x11, 1, 3]
    ∧ (answer (.getRing 1) boring).length = 32 := by decide +kernel

/-- A visit to DRIVE that listens for its reply. -/
def listening : State :=
  { boring with slc := { boring.slc with phase := .listening, windowTimer := .running 8 } }

/-- A DRIVE reply of speed 0, whose last character is given. -/
def driveReply (x y : Byte) : List Char9 :=
  [0x101, 0x031, 0x005, 0, 0, 0, 0, 0, BitVec.setWidth 9 x, BitVec.setWidth 9 y]

theorem test_station_replies :
    let c := checkBytes [0x31, 0x05, 0, 0, 0, 0, 0]
    let good := after (.stationReply (driveReply (c.getD 0 0) (c.getD 1 0))) listening
    let bad := after (.stationReply (driveReply (c.getD 0 0) (c.getD 1 0 + 1))) listening
    good.chu.last = some ⟨0, .cw, 0⟩ ∧ good.slc.position = 2 ∧ (good.station 0).misses = 0
    ∧ bad.chu.last = none ∧ bad.slc.position = 2 ∧ (bad.station 0).misses = 1
    ∧ (after (.stationReply [0x102]) listening).slc.discarding = true := by decide +kernel

theorem test_station_loss_and_disabling :
    let s := { listening with slc := { listening.slc with
      stations := listening.slc.stations.set 0 { enabled := true, link := .online, misses := 2 } } }
    ((after .replyWindowExpiry s).station 0).link = .lost ∧ (after .replyWindowExpiry s).mdu.halts[3] = some false
    ∧ answer (.stationEnable 1 7 1) boring = [0x10, 0, 0] ∧ answer (.stationEnable 1 14 0) boring = [0x11, 1, 0]
    ∧ answer (.stationEnable 1 13 2) boring = [0x11, 2, 0] ∧ answer (.stationEnable 1 13 1) boring = [0x00, 0, 2]
    ∧ answer (.setLinkTiming 1 50) boring = [0x00, 0, 50, 0] ∧ answer (.setLinkTiming 1 51) boring = [0x11, 1, 0]
    ∧ answer (.setLinkTiming 1 2) listening = [0x00, 1, 8, 2] := by decide +kernel

/-- A frame that is received whole ends what the receiver held (R193). -/
theorem test_frame_received_hunts :
    let begun := [(0xC3 : Byte), 0x00, 0x09].foldl (fun s b => receiveByte b false s) boring
    begun.hlc.rx = .header ∧ (after (.hostFrameReceived ⟨0x09, 5, []⟩) begun).hlc.rx = .hunting
    ∧ (after (.hostFrameReceived ⟨0x09, 5, []⟩) begun).hlc.bytes = []
    ∧ (after (.hostFrameReceived ⟨0x09, 5, []⟩) begun).hlc.gapTimer = .stopped
    ∧ (after (.hostFrameReceived ⟨0x09, 5, []⟩) begun).hlc.queue = [⟨0x09, 5, []⟩] := by decide +kernel

theorem test_host_link :
    let stop : Frame := ⟨0x09, 5, []⟩
    let bytes := [0xC3, 0x00, 0x09, 0x05] ++ checkBytes [0x00, 0x09, 0x05]
    (bytes.foldl (fun s b => receiveByte b false s) boring).hlc.queue = [stop]
    ∧ (after (.hostFrameReceived stop) { boring with hlc := { boring.hlc with queue := List.replicate 4 stop } }).hlc.sending
        = some ⟨0x89, 5, [0x12]⟩
    ∧ answer .unknownRequestKind { boring with hlc := { boring.hlc with queue := [⟨0x1E, 5, []⟩] } } = [0x13]
    ∧ answer .requestLengthMismatch { boring with hlc := { boring.hlc with queue := [⟨0x09, 5, [0]⟩] } } = [0x14] := by
  decide +kernel

theorem test_restart :
    (after (.restart 1) (waiting turning)).mdu.mode = .standby ∧ (after (.restart 1) (waiting turning)).bld.plan = .idle
    ∧ (after (.restart 1) turning).chu.drive = .stopped ∧ answer (.restart 1) boring = [0x00] := by decide +kernel

/-- The notices of a restart with no line in service: MODE_CHANGED with both sets empty, HOLD_CHANGED for the emptying,
and GROUT_NONE posted again (R176). -/
theorem test_restart_notices :
    let s : State := { State.reset with
      mdu := { State.reset.mdu with mode := .ready }
      hlc := { State.reset.hlc with notices := [], sending := some ⟨0, 0, []⟩ } }
    (after (.restart 1) s).hlc.notices.map (·.kind)
      = [noticeFrame .modeChanged [], noticeFrame .holdChanged [], noticeFrame .holdChanged []].map (·.kind)
    ∧ ((after (.restart 1) s).hlc.notices.headD ⟨0, 0, []⟩).payload.drop 3 = [0, 0, 0]
    ∧ (after (.restart 1) s).mdu.holds[1] = true := by decide +kernel

/-- The bytes of the status parts, the result included (R39, R158, R201): part 1 with no arc, one and two. -/
theorem test_status_lengths :
    let arcs (n : Nat) : State := { releasing with thu := { releasing.thu with
      arcs := List.replicate n (releasing.thu.arcs.headD ⟨1, 0, 1, .withdrawn, .stopped, .stopped, false, false⟩) } }
    (answer (.getStatus 1 0) State.reset).length = 35
    ∧ [0, 1, 2].map (fun n => (answer (.getStatus 1 1) (arcs n)).length) = [194, 200, 206] := by decide +kernel

/-- The queue is taken front first, and an event that cannot arise changes nothing (log 2). -/
theorem test_queue_and_impossible_events :
    (match step { boring with pending := [.beltPPulse, .stop 1] } with
      | .next t => t == { after .beltPPulse boring with pending := [.stop 1] }
      | .fault _ => false
      | .refused _ => false) = true
    ∧ ([Instr.stallTimerExpiry, .excavTimerExpiry, .ageTimerExpiry, .holdTimerExpiry 0, .gshortTimerExpiry,
        .stepTimerExpiry, .standstillTimerExpiry, .replyWindowExpiry, .gapTimerExpiry, .commandFrameSent,
        .hostFrameSent, .unknownRequestKind, .idleTimerExpiry 6].all fun c => after c boring == boring) = true := by
  decide +kernel

/-! ## Witnesses: for every statement with hypotheses, states and operands that meet them together

A statement about a request asks that it is taken; where its clauses part at the bounds of an operand, the witness names
the operand on both sides of each bound. -/

/-- With an empty receive queue any request is taken as it arrives. -/
theorem takes_of_empty {s : State} (h : canTake s = true) (q : s.hlc.queue = []) (i : Instr) : takes i s :=
  ⟨h, .inl q⟩

theorem takes_reset (i : Instr) : takes i State.reset := takes_of_empty (by decide) rfl i
theorem takes_standby (i : Instr) : takes i standby := takes_of_empty (by decide) rfl i
theorem takes_ready (i : Instr) : takes i ready := takes_of_empty (by decide) rfl i
theorem takes_boring (i : Instr) : takes i boring := takes_of_empty (by decide) rfl i
theorem takes_halted (i : Instr) : takes i halted := takes_of_empty (by decide) rfl i
theorem takes_waiting (i : Instr) : takes i (waiting boring) := takes_of_empty (by decide) rfl i

theorem lawful_reset : State.reset.mdu.Lawful := by unfold Mdu.Lawful; decide +kernel
theorem lawful_standby : standby.mdu.Lawful := by unfold Mdu.Lawful; decide +kernel
theorem lawful_ready : ready.mdu.Lawful := by unfold Mdu.Lawful; decide +kernel
theorem lawful_boring : boring.mdu.Lawful := by unfold Mdu.Lawful; decide +kernel
theorem lawful_turning : turning.mdu.Lawful := by unfold Mdu.Lawful; decide +kernel
theorem lawful_halted : halted.mdu.Lawful := by unfold Mdu.Lawful; decide +kernel

/-- A STOP at the head of the receive queue is taken too. -/
theorem witness_takes_from_queue :
    takes (.stop 1) { boring with hlc := { boring.hlc with queue := [⟨0x09, 1, []⟩] } } :=
  ⟨by decide, .inr ⟨_, _, rfl, by decide⟩⟩

theorem witness_StepRunsFrontCommand :
    boring.pending = [] ∧ selfCommands boring = [] ∧ listening.pending = []
    ∧ selfCommands { listening with now := 8 } = [.replyWindowExpiry] := by decide +kernel

/-- With every station enabled, with none, and with a visit in flight. -/
theorem witness_ResetEndBeginsTheRound :
    let none : State := { boring with slc := { boring.slc with stations := Vector.replicate 13 ⟨false, .lost, 0⟩ } }
    State.reset.slc.phase = .none ∧ (boring.slc.phase = .none ∧ (boring.station 0).enabled = true)
    ∧ (none.slc.phase = .none ∧ nextStation none.slc (fun _ => true) = Option.none ∧ (after .resetEnd none).slc.phase = .none)
    ∧ listening.slc.phase ≠ .none ∧ (after .powerOnReset boring).resetHeld = true := by
  decide +kernel

/-- With the debt at the limit of 500, one below it, and in STANDBY. -/
theorem witness_ReversePulse :
    ([499, 500, 2000].all fun b => let s := { boring with adv := { boring.adv with debt := b } }
      !s.resetHeld && s.pfs.next == none && decide (s.adv.debt = b)) = true
    ∧ standby.resetHeld = false ∧ standby.mdu.mode ≠ .boring := by decide

theorem witness_RepayingPulse :
    let s (b : Nat) := { boring with adv := { boring.adv with debt := b } }
    (s 1).resetHeld = false ∧ 0 < (s 1).adv.debt ∧ (s 2000).resetHeld = false ∧ 0 < (s 2000).adv.debt := by decide

/-- A pulse below the quantum; a paused AWAIT_STROKE that it completes; a waiting one that it does not. -/
theorem witness_CreditedPulseWithoutStep :
    let held : State := { waiting boring with
      adv := { boring.adv with stroke := 99, acc := 48 }
      bld := { (waiting boring).bld with plan := .paused .host } }
    (boring.resetHeld = false ∧ boring.adv.debt = 0 ∧ boring.adv.acc + 1 ≠ boring.profile.quantum ∧ boring.bld.inbox = []
      ∧ boring.bld.flight ≠ .stroke)
    ∧ (held.resetHeld = false ∧ held.adv.debt = 0 ∧ held.adv.acc + 1 ≠ held.profile.quantum ∧ held.bld.inbox = []
      ∧ held.bld.flight = .stroke ∧ held.bld.step.stroke ≤ min 30000 (held.adv.stroke + 1) ∧ held.bld.plan.busy = false
      ∧ held.bld.slot.val < 127)
    ∧ (waiting boring).bld.flight = .stroke ∧ ¬ (waiting boring).bld.step.stroke ≤ min 30000 (boring.adv.stroke + 1) := by
  decide +kernel

/-- Worked case 1, with no profile pending and with one; the last clauses at the bounds of the stroke. -/
theorem witness_AdvanceStepTaken :
    let s (next : Option ProfileName) : State := { caseOne with pfs := { caseOne.pfs with next := next } }
    (∀ next : Option ProfileName, (s next).resetHeld = false ∧ (s next).adv.debt = 0
      ∧ (s next).adv.acc + 1 = (s next).profile.quantum ∧ (s next).mdu.mode = .boring)
    ∧ caseOne.pfs.next = none ∧ caseOne.bld.flight ≠ .stroke ∧ caseOne.fcu.transit.length < 64
    ∧ min 30000 (caseOne.adv.stroke + 1) < geo.ringLength ∧ caseOne.geometry = some geo
    ∧ (∀ built : Bool, ∀ n ∈ [14999, 15000, 15999, 16000, 30001], (caseAt n built).resetHeld = false
      ∧ (caseAt n built).adv.debt = 0 ∧ (caseAt n built).adv.acc + 1 = (caseAt n built).profile.quantum
      ∧ (caseAt n built).pfs.next = none ∧ (caseAt n built).bld.flight ≠ .stroke
      ∧ (caseAt n built).geometry = some geo ∧ (caseAt n built).rgu.current.buildDone = built)
    ∧ (s (some .a)).pfs.next = some .a ∧ (s (some .a)).thu.arcs = [] ∧ (s (some .a)).thu.waiting = none
    ∧ (s (some .a)).bld.inbox = [] :=
  ⟨fun _ => ⟨rfl, rfl, rfl, rfl⟩, by decide +kernel⟩

/-- A line of weight above 0 and one of weight 0. -/
theorem witness_StepMassAndGrout :
    caseOne.geometry = some geo ∧ (caseOne.line 0).effective = 48
    ∧ ((after (.idleTimerExpiry 1) blockage).line 1).effective = 0 := by decide +kernel

theorem advanceLaw_caseOne : caseOne.AdvanceLaw := by unfold State.AdvanceLaw; decide +kernel

theorem groutLaw_of_standby_lines (s : State) (h : s.gru = standby.gru) (hg : s.pfs.geometry = some geo) : s.GroutLaw := by
  have h1 : ∀ i, s.line i = standby.line i := fun i => by simp only [State.line, h]
  refine ⟨fun i => ?_, ?_, fun i => ?_, ?_, ?_⟩
  · rw [h1, h]; revert i; decide +kernel
  · rw [h]; decide +kernel
  · rw [h1]; revert i; decide +kernel
  · rw [h]; decide +kernel
  · have hg' : s.geometry = some geo := hg
    rw [hg']
    refine ⟨by decide, fun i => ?_⟩
    rw [h1]; revert i; decide +kernel

theorem witness_StepFiguresStayInRange :
    let s : State := { caseOne with gru := standby.gru }
    s.geometry = some geo ∧ geometryFailure geo = none ∧ profileFailure s.profile = none ∧ 200 ≤ 200 ∧ s.AdvanceLaw
    ∧ s.GroutLaw :=
  ⟨by decide, by decide +kernel, by decide +kernel, by decide, advanceLaw_caseOne,
   groutLaw_of_standby_lines _ rfl rfl⟩

theorem witness_SteerStoresSetpoints :
    (takes (.steer 1 0 0 0 0) State.reset ∧ State.reset.mdu.Lawful ∧ State.reset.geometry = none)
    ∧ takes (.steer 1 22000 22000 22000 22000) boring ∧ takes (.steer 1 22001 0 0 0) boring ∧ boring.mdu.Lawful :=
  ⟨⟨takes_reset _, lawful_reset, rfl⟩, takes_boring _, takes_boring _, lawful_boring⟩

theorem witness_HoldTimersPostTheirReasons :
    let s : State := { boring with thu := { boring.thu with groupTimer := .running 10000 }
                                   gru := { boring.gru with shortTimer := .running 60000, shortfall := .qualifying } }
    s.thu.groupTimer = .running 10000 ∧ s.gru.shortTimer = .running 60000 ∧ s.mdu.Lawful :=
  ⟨rfl, rfl, lawful_boring⟩

theorem witness_ArcTimersTellTheRequester :
    (∃ a, releasing.arc 1 = some a ∧ a.release = .running 20000 ∧ a.byBld = true) ∧ releasing.bld.flight = .release 1
    ∧ releasing.bld.inbox = []
    ∧ (∃ a, reseating.arc 1 = some a ∧ a.reseat = .running 20000 ∧ a.byBld = false) ∧ reseating.bld.inbox = [] :=
  ⟨⟨_, rfl, rfl, rfl⟩, rfl, rfl, ⟨_, rfl, rfl, rfl⟩, rfl⟩

/-- A request waits: one that passes the tests of admission, and one for a pair of an arc in flight. -/
theorem witness_ArcTimersTellTheRequester_admission :
    let s (b : State) : State := { b with thu := { b.thu with waiting := some ⟨0, 2⟩ } }
    ((s boring).thu.waiting = some ⟨0, 2⟩ ∧ (s boring).admits ⟨0, 2⟩)
    ∧ ((s releasing).thu.waiting = some ⟨0, 2⟩ ∧ ¬ (s releasing).admits ⟨0, 2⟩)
    ∧ arcAnswer ⟨0, 2⟩ (s boring) = .busy ∧ arcAnswer ⟨0, 2⟩ boring = .granted 1 false
    ∧ arcAnswer ⟨0, 2⟩ releasing = .waits := by
  unfold State.admits; decide +kernel

/-- Pair 7 of the short group can be reinstated; pair 15 thrusts; there is no pair 16. -/
theorem witness_PairReinstateReseats :
    takes (.pairReinstate 1 7) shortGroup ∧ (shortGroup.pair 7).state.cause ≠ none ∧ (shortGroup.pair 7).tag = none
    ∧ shortGroup.online 4 = true ∧ (shortGroup.pair 7).lastStatus = some .ok ∧ shortGroup.thu.arcs = []
    ∧ takes (.pairReinstate 1 15) boring ∧ takes (.pairReinstate 1 16) boring :=
  ⟨takes_of_empty (by decide) rfl _, by decide, rfl, by decide, rfl, rfl, takes_boring _, takes_boring _⟩

/-- A THRUST report that ends an arc's release, and one that ends an arc's reseat for no requester. -/
theorem witness_PairReinstateReseats_reports :
    let e (pressure : Nat) (isClear : Bool) : Vector (Nat × Bool × PairStatus) 4 :=
      #v[(pressure, isClear, .ok), (3000, false, .ok), (3000, false, .ok), (3000, false, .ok)]
    let u := thrustReport 0 (e 0 true) releasing
    let v := thrustReport 0 (e 3000 false) reseating
    (releasing.thu.waiting = none ∧ pairStates u.thu ≠ pairStates releasing.thu
      ∧ releasing.thu.arcs.map (fun a => (a.phase, arcAll u a .withdrawn)) = [(.withdrawing, true)])
    ∧ reseating.thu.waiting = none ∧ pairStates v.thu ≠ pairStates reseating.thu ∧ v.bld.inbox = []
    ∧ reseating.thu.arcs.map (fun a => (a.phase, arcAll v a .thrusting)) = [(.reseating, true)] := by decide +kernel

theorem witness_CutterheadSetsTarget :
    takes (.cutterhead 1 600 1) boring ∧ takes (.cutterhead 1 601 1) boring ∧ takes (.cutterhead 1 600 2) boring
    ∧ takes (.cutterhead 1 1 0) ready ∧ takes (.cutterhead 1 0 0) ready
    ∧ takes (.cutterhead 1 1 0) (inMode .standstill) :=
  ⟨takes_boring _, takes_boring _, takes_boring _, takes_ready _, takes_ready _, takes_of_empty (by decide) rfl _⟩

/-- In BORING, and in STANDBY. -/
theorem witness_HaltTimersHaltTheMachine :
    let s (b : State) : State := { b with chu := { b.chu with stallTimer := .running 5000 }
                                          fcu := { b.fcu with underTimer := .running 5000, excavTimer := .running 60000
                                                              weighing := some 1 } }
    (∀ b : State, (s b).chu.stallTimer = .running 5000 ∧ (s b).fcu.underTimer = .running 5000
      ∧ (s b).fcu.excavTimer = .running 60000)
    ∧ (s boring).mdu.mode = .boring ∧ (s boring).pfs.next = none ∧ (s standby).mdu.mode = .standby
    ∧ (s boring).fcu.weighing = some (s boring).rgu.current.number :=
  ⟨fun _ => ⟨rfl, rfl, rfl⟩, by decide⟩

theorem witness_LoadIndexAndRampStayBetween :
    (40000 ≤ 40000 ∧ 16 ≤ 16) ∧ (0 : Nat) ≤ 450 ∧ ((450 : Int) - 0).natAbs * 1000 ≤ 10 * 45000 := by decide

/-- The report of example 3.2 enters the zone; with H at the H_trip of 25,000 the same machine trips. -/
theorem witness_LoadIndexAndRampStayBetween_reports :
    let hot : State := { turning with chu := { turning.chu with loadIndex := 30000, zone := true } }
    let r : DriveReport := ⟨449, .cw, 16000⟩
    (turning.geometry = some geo ∧ (driveReport ⟨449, .cw, 10560⟩ turning).chu.zone ≠ turning.chu.zone)
    ∧ (driveReport r hot).chu.zone = hot.chu.zone ∧ hot.geometry ≠ none
    ∧ hot.profile.hTrip ≤ (driveReport r hot).chu.loadIndex ∧ hot.mdu.mode = .boring ∧ hot.pfs.next = none
    ∧ hot.mdu.Lawful :=
  ⟨by decide +kernel, by decide +kernel, by decide, by decide +kernel, rfl, rfl, lawful_turning⟩

theorem witness_BeltPulseAddsMass : boring.resetHeld = false ∧ State.reset.geometry = none := by decide

/-- The head changes the weighing ring; with ring 413 weighing it does not. -/
theorem witness_AgedEntryIsReleased :
    (∃ e, weighing.fcu.transit = [e] ∧ e.age = .running 180000 ∧ e.ring = 413) ∧ weighing.fcu.weighing = some 412
    ∧ (∃ le, newestEntry 412 weighing.rgu.log = some le ∧ le.settled = none) :=
  ⟨⟨_, rfl, rfl, rfl⟩, rfl, ⟨_, rfl, rfl⟩⟩

theorem witness_ChamberTrimMovesSetPoint :
    takes (.chamberTrim 1 100) boring ∧ takes (.chamberTrim 1 101) boring ∧ takes (.chamberTrim 1 (-100)) boring
    ∧ takes (.chamberTrim 1 (-101)) boring ∧ boring.mdu.Lawful :=
  ⟨takes_boring _, takes_boring _, takes_boring _, takes_boring _, lawful_boring⟩

/-- A trim change while the BULKHEAD station is LOST, with its last valid report kept. -/
theorem witness_ChamberTrimMovesSetPoint_lost :
    let lost : State := { regulating with
      fcu := { regulating.fcu with last := some ⟨⟨190, true⟩, ⟨250, true⟩, ⟨300, true⟩, 0, 50⟩ }
      slc := { regulating.slc with stations := regulating.slc.stations.set 1 ⟨true, .lost, 3⟩ } }
    takes (.chamberTrim 1 100) lost ∧ lost.mdu.Lawful ∧ (lost.station 1).link ≠ .online
    ∧ lost.fcu.last.any (·.axis.valid) = true :=
  ⟨takes_of_empty (by decide) rfl _, lawful_boring, by decide, by decide⟩

/-- The regulator of example 4.1, and a report with the axis pressure invalid. -/
theorem witness_ChamberTrimMovesSetPoint_reports :
    let blind : BulkheadReport := ⟨⟨190, true⟩, ⟨0, false⟩, ⟨300, true⟩, 0, 50⟩
    regulating.ScrewLaw ∧ regulating.mdu.mode = .boring ∧ regulating.pfs.next = none ∧ regulating.fcu.faceBlind = false
    ∧ (bulkheadReport blind regulating).fcu.faceBlind = true ∧ regulating.mdu.Lawful :=
  ⟨by unfold State.ScrewLaw; decide +kernel, rfl, rfl, rfl, by decide +kernel, lawful_boring⟩

/-- Lines 0 and 5; a HOLDING line that owes block_owed and one that owes 1 mL less. -/
theorem witness_GroutLineTimers :
    let held (i : Fin 6) (owed : Int) : State := { boring with gru := { boring.gru with
      lines := boring.gru.lines.set i { lineOf 48 .holding owed with holdTimer := .running 90000 } } }
    let flushing : State := { boring with gru := { boring.gru with
      lines := boring.gru.lines.set 5 { lineOf 48 .flushing 0 with flushTimer := .running 120000 } } }
    ((blockage.line 1).idleTimer = .running 30000 ∧ (blockage.line 1).state.inService = true)
    ∧ (((held 0 4000).line 0).holdTimer = .running 90000 ∧ ((held 0 4000).line 0).state = .holding)
    ∧ (((held 5 3999).line 5).holdTimer = .running 90000 ∧ ((held 5 3999).line 5).state = .holding)
    ∧ (flushing.line 5).flushTimer = .running 120000 := by decide +kernel

theorem witness_GroutLineRequests :
    (takes (.groutLineFlush 1 5 0) boring ∧ (0 : Nat) ≠ 1 ∧ (0 : Nat) ≠ 2) ∧ takes (.groutLineFlush 1 6 0) boring
    ∧ (takes (.groutLineFlush 1 5 3) boring ∧ (3 : Nat) ≠ 1 ∧ (3 : Nat) ≠ 2)
    ∧ takes (.groutLineIsolate 1 5) boring ∧ takes (.groutLineIsolate 1 6) boring
    ∧ takes (.groutLineReinstate 1 5) boring ∧ takes (.groutLineReinstate 1 6) boring :=
  ⟨⟨takes_boring _, by decide, by decide⟩, takes_boring _, ⟨takes_boring _, by decide, by decide⟩, takes_boring _,
   takes_boring _, takes_boring _, takes_boring _⟩

theorem witness_OwedGroutAndWeightsAreConserved :
    let s : State := { blockage with gru := { blockage.gru with
      lines := blockage.gru.lines.set 1 { lineOf 40 .injecting 2422 with lastCount := some 65530 } } }
    (owedMagnitude blockage.gru ≤ 999999999 ∧ ∃ t, exec (.idleTimerExpiry 1) blockage = .next t)
    ∧ owedMagnitude caseOne.gru + (stepRecord 37 caseOne).grout.toList.sum ≤ 999999999
    ∧ (newStrokes (s.line 1) 4 = 10 ∧ owedMagnitude s.gru + newStrokes (s.line 1) 4 * strokeVolume s 1 ≤ 999999999)
    ∧ standby.GroutLaw ∧ standby.geometry = some geo :=
  ⟨⟨by decide +kernel, ⟨_, rfl⟩⟩, by decide +kernel, by decide +kernel, groutLaw_of_standby_lines _ rfl rfl, rfl⟩

theorem witness_StepEntriesAreWrittenAndRead :
    takes (.writeStep 1 127 ⟨8, 2, 15, 6, 127, 30000, 600, 1⟩) boring ∧ takes (.writeStep 1 128 ⟨0, 0, 0, 1, 0, 0, 0, 0⟩) boring
    ∧ takes (.writeStep 1 0 ⟨9, 3, 16, 7, 128, 30001, 601, 2⟩) boring
    ∧ takes (.writeStep 1 0 ⟨0, 0, 0, 0, 0, 0, 0, 0⟩) (waiting boring)
    ∧ takes (.readStep 1 127) boring ∧ takes (.readStep 1 128) boring :=
  ⟨takes_boring _, takes_boring _, takes_boring _, takes_waiting _, takes_boring _, takes_boring _⟩

/-- Slot 0 holds an AWAIT_STROKE not yet reached; in `picking` slot 127 holds a PICK with nothing held. -/
theorem witness_BuildStartIssuesFirstStep :
    let picking : State := { boring with bld := { boring.bld with
      table := boring.bld.table.set 127 { PlanStep.default with kind := .pick } } }
    let resting : State := { waiting boring with bld := { (waiting boring).bld with plan := .idle, flight := .none } }
    (takes (.buildStart 1 0) resting ∧ resting.bld.table[(0 : Fin 128)].kind = .awaitStroke ∧ resting.bld.inbox = []
      ∧ resting.adv.stroke < resting.bld.table[(0 : Fin 128)].stroke ∧ resting.online 7 = true)
    ∧ (takes (.buildStart 1 127) picking ∧ picking.bld.table[(127 : Fin 128)].kind = .pick ∧ picking.bld.held = none
      ∧ picking.bld.orphan = none)
    ∧ takes (.buildStart 1 128) boring ∧ takes (.buildStart 1 0) (waiting boring) ∧ takes (.buildStart 1 0) ready :=
  ⟨⟨takes_of_empty (by decide) rfl _, by decide +kernel, rfl, by decide +kernel, by decide⟩,
   ⟨takes_of_empty (by decide) rfl _, by decide +kernel, rfl, rfl⟩, takes_boring _, takes_waiting _, takes_ready _⟩

/-- A WITHDRAW at slot 0, whose arc is granted, waits or finds THU busy. -/
theorem witness_BuildStartIssuesFirstStep_withdraw :
    let s (b : State) (w : Option ArcRequest) : State := { b with
      thu := { b.thu with waiting := w }
      bld := { boring.bld with table := boring.bld.table.set 0 { PlanStep.default with kind := .withdraw, width := 2 } } }
    (∀ w : Option ArcRequest, takes (.buildStart 1 0) (s boring w) ∧ takes (.buildStart 1 0) (s releasing w)
      ∧ (s releasing w).bld.table[(0 : Fin 128)].kind = .withdraw)
    ∧ arcAnswer ⟨0, 2⟩ (s boring none) = .granted 1 false ∧ arcAnswer ⟨0, 2⟩ (s releasing none) = .waits
    ∧ arcAnswer ⟨0, 2⟩ (s boring (some ⟨8, 1⟩)) = .busy :=
  ⟨fun _ => ⟨takes_of_empty rfl rfl _, takes_of_empty rfl rfl _, rfl⟩, by decide +kernel⟩

theorem witness_PlansPauseResumeAndFault :
    let paused : State := { waiting boring with bld := { (waiting boring).bld with plan := .paused .host } }
    takes (.buildPause 1) (waiting boring) ∧ takes (.buildPause 1) boring
    ∧ (takes (.buildResume 1) paused ∧ paused.bld.plan.pauseCause ≠ none ∧ paused.bld.flight ≠ .none)
    ∧ takes (.buildResume 1) boring ∧ takes (.buildAbort 1) (waiting boring) ∧ takes (.buildAbort 1) boring
    ∧ (waiting boring).bld.stepTimer = .running 5000 :=
  ⟨takes_waiting _, takes_boring _, ⟨takes_of_empty (by decide) rfl _, by decide, by decide⟩, takes_boring _,
   takes_waiting _, takes_boring _, rfl⟩

/-- A PAUSED plan with no step in flight, at slot 0 with a step of this kind. -/
def pausedAt (k : StepKind) : State :=
  { boring with bld := { boring.bld with
      table := boring.bld.table.set 0 { PlanStep.default with kind := k, stroke := 100, width := 2 }
      plan := .paused .host } }

/-- Resuming with nothing in flight: a stroke not reached, a PICK, a PLACE that passes its checks and one that does
not, and a WITHDRAW whose arc is granted. -/
theorem witness_PlansPauseResumeAndFault_issue :
    let place (b : Option SegKind) : State := { pausedAt .place with bld := { (pausedAt .place).bld with
      held := b, arcs := [{ id := 1, start := 0, width := 2, phase := .withdrawn, placed := false }] } }
    (∀ k : StepKind, takes (.buildResume 1) (pausedAt k) ∧ (pausedAt k).bld.plan.pauseCause ≠ none
      ∧ (pausedAt k).bld.flight = .none ∧ (pausedAt k).bld.inbox = [] ∧ (pausedAt k).bld.orphan = none
      ∧ (pausedAt k).bld.held = none ∧ (pausedAt k).bld.step.kind = k ∧ (pausedAt k).adv.stroke < 100)
    ∧ (placeCheck (place (some .standard))).toOption = some (.place .standard 0 2 1)
    ∧ (placeCheck (place none)).toOption = none ∧ arcAnswer ⟨0, 2⟩ (pausedAt .withdraw) = .granted 1 false :=
  ⟨fun _ => ⟨takes_of_empty rfl rfl _, nofun, rfl, rfl, rfl, rfl, rfl, by change 0 < 100; decide⟩, by decide +kernel,
   by decide +kernel, by decide +kernel⟩

/-- The open ring holds n of its seven segments. -/
def withSegments (n : Nat) (strokeDone : Bool) : State :=
  { standby with rgu := { standby.rgu with current := { standby.rgu.current with
      segments := (List.range n).map fun k => ⟨k + 1, .standard, 0, 2, .placed⟩
      strokeDone := strokeDone } } }

/-- At six segments the KEY finishes the build, with the stroke done or not; at seven the ring is full. -/
theorem witness_RecordSegmentAppends :
    (takes (.recordSegment 1 2 0 1) (withSegments 6 false) ∧ takes (.recordSegment 1 2 0 1) (withSegments 6 true)
      ∧ takes (.recordSegment 1 0 0 1) (withSegments 7 false) ∧ segmentCount (withSegments 6 true) = 7)
    ∧ takes (.recordSegment 1 2 15 6) standby ∧ takes (.recordSegment 1 3 0 1) standby
    ∧ takes (.recordSegment 1 0 16 1) standby ∧ takes (.recordSegment 1 0 0 0) standby
    ∧ takes (.recordSegment 1 0 0 7) standby ∧ takes (.recordSegment 1 0 0 1) State.reset
    ∧ takes (.recordSegment 1 0 0 1) (waiting boring) :=
  ⟨⟨takes_of_empty (by decide) rfl _, takes_of_empty (by decide) rfl _, takes_of_empty (by decide) rfl _, by decide⟩,
   takes_standby _, takes_standby _, takes_standby _, takes_standby _, takes_standby _, takes_reset _, takes_waiting _⟩

/-- A plan paused with an operation in flight at slot 0, and one with an orphan operation. -/
def erecting (w : ErectorWork) : State :=
  { boring with bld := { boring.bld with
      plan := .paused .host, flight := .erector ⟨7, w⟩, stepTimer := .running 5000, held := some .standard
      arcs := [{ id := 1, start := 0, width := 2, phase := .withdrawn, placed := false }] } }

/-- Example: a PLACE that ends PLACED_OFFSET is recorded, one that ends PLACE_RETRY is not (R119). -/
theorem test_erector_reports :
    let s (r : ErectorResult) := takeReport (.erector ⟨7, some r⟩) (erecting (.place .standard 0 2 1))
    (s .placedOffset).rgu.current.segments = [⟨1, .standard, 0, 2, .placedOffset⟩]
    ∧ ((s .placedOffset).bld.held, (s .placedOffset).bld.outcome, (s .placedOffset).bld.slot) = (none, 1, 1)
    ∧ ((s .placeRetry).bld.held, (s .placeRetry).bld.outcome) = (some .standard, 3)
    ∧ (s .stopped).bld.plan = .faulted .erectorStopped
    ∧ (s .pickOk).bld.plan = .faulted .erectorStopped := by decide +kernel

theorem witness_RecordSegmentAppends_reports :
    let orphan : State := { boring with bld := { boring.bld with orphan := some ⟨7, .pick .key⟩ } }
    (∀ w : ErectorWork, (erecting w).bld.inbox = [] ∧ (erecting w).bld.flight = .erector ⟨7, w⟩
      ∧ (erecting w).bld.orphan = none ∧ (erecting w).bld.plan.busy = false ∧ (erecting w).bld.slot.val < 127)
    ∧ orphan.bld.inbox = [] ∧ orphan.bld.orphan = some ⟨7, .pick .key⟩ ∧ orphan.bld.flight ≠ .orphan
    ∧ (∀ o, orphan.bld.orphan = some o → o.number ≠ 8) ∧ ∀ op, orphan.bld.flight = .erector op → op.number ≠ 8 := by
  refine ⟨fun _ => ⟨rfl, rfl, rfl, rfl, by change 0 < 127; decide⟩, rfl, rfl, by decide, fun o h => ?_, fun _ h => nomatch h⟩
  obtain rfl := Option.some.inj h
  decide

theorem test_key_finishes_the_build :
    (after (.recordSegment 1 2 0 1) (withSegments 6 false)).rgu.current.buildDone = true
    ∧ (after (.recordSegment 1 2 0 1) (withSegments 6 true)).rgu.current.number = 2
    ∧ (after (.recordSegment 1 2 0 1) (withSegments 6 true)).rgu.log.map (·.record.number) = [1]
    ∧ answer (.recordSegment 1 0 0 1) (withSegments 6 true) = [0x10, 2, 0]
    ∧ answer (.recordSegment 1 2 0 1) (withSegments 7 false) = [0x10, 1, 0] := by decide +kernel

theorem witness_QueriesAnswerAndChangeNothing :
    takes (.getStatus 1 6) boring ∧ takes (.getStatus 1 7) boring ∧ takes (.getGeometry 1) boring
    ∧ takes (.readProfile 1 3) boring ∧ takes (.readProfile 1 4) boring ∧ takes (.getRing 1) boring
    ∧ takes (.getLogEntry 1 0) boring ∧ takes (.getLogEntry 1 65535) boring ∧ takes (.getLogEntry 1 412) weighing
    ∧ takes (.getMuck 1) boring :=
  ⟨takes_boring _, takes_boring _, takes_boring _, takes_boring _, takes_boring _, takes_boring _, takes_boring _,
   takes_boring _, takes_of_empty (by decide) rfl _, takes_boring _⟩

theorem witness_SetGeometryReachesEveryUnit :
    (takes (.setGeometry 1 geo) standby ∧ geometryFailure geo = none) ∧ takes (.setGeometry 1 geo) boring
    ∧ takes (.setGeometry 1 { geo with faceArea := 0 }) standby ∧ geometryFailure { geo with faceArea := 0 } = some (1, 0) :=
  ⟨⟨takes_standby _, by decide +kernel⟩, takes_boring _, takes_standby _, by decide +kernel⟩

theorem witness_ProfilesAreWrittenAndSelected :
    (takes (.writeProfile 1 3 profileB) boring ∧ profileFailure profileB = none) ∧ takes (.writeProfile 1 4 profileB) boring
    ∧ takes (.writeProfile 1 0 profileB) boring ∧ takes (.writeProfile 1 3 { profileB with quantum := 9 }) boring
    ∧ takes (.selectProfile 1 0) boring ∧ takes (.selectProfile 1 3) boring ∧ takes (.selectProfile 1 3) ready
    ∧ takes (.selectProfile 1 4) boring :=
  ⟨⟨takes_boring _, by decide +kernel⟩, takes_boring _, takes_boring _, takes_boring _, takes_boring _, takes_boring _,
   takes_ready _, takes_boring _⟩

/-- In STANDBY, which a selection does not leave. -/
theorem witness_ProfilesAreWrittenAndSelected_standby :
    takes (.selectProfile 1 3) standby ∧ standby.mdu.mode = .standby ∧ standby.mdu.Lawful ∧ standby.pfs.active ≠ .d :=
  ⟨takes_standby _, rfl, lawful_standby, by decide⟩

/-- READY with P at, above and below the quantum of 37 of the profile selected. -/
theorem witness_ProfilesAreWrittenAndSelected_activation :
    let s (acc : Nat) : State := { ready with adv := { ready.adv with acc := acc } }
    (∀ acc : Nat, takes (.selectProfile 1 1) (s acc) ∧ (s acc).pfs.active ≠ .b ∧ (s acc).mdu.mode ≠ .boring
      ∧ (s acc).bld.inbox = [])
    ∧ (s 0).pfs.profiles[ProfileName.b.index] = profileB ∧ profileB.nMin = (s 0).profile.nMin
    ∧ profileB.quantum ≤ (s 37).adv.acc ∧ profileB.quantum ≤ (s 49).adv.acc ∧ (s 36).adv.acc < profileB.quantum
    ∧ (s 37).adv.stroke < geo.ringLength ∧ (s 37).geometry = some geo
    ∧ (after (.selectProfile 1 1) (s 40)).adv.acc = 0 ∧ (after (.selectProfile 1 1) (s 36)).adv.acc = 36
    ∧ (after (.selectProfile 1 1) (s 40)).rgu.current.changes = [⟨0, .b⟩] :=
  ⟨fun _ => ⟨takes_of_empty rfl rfl _, by change ProfileName.a ≠ .b; decide, by change Mode.ready ≠ .boring; decide, rfl⟩,
   by decide +kernel⟩

theorem witness_SetModeStandbyEmptiesTheSets :
    takes (.setMode 1 0) standby ∧ takes (.setMode 1 0) halted ∧ takes (.setMode 1 0) boring :=
  ⟨takes_standby _, takes_halted _, takes_boring _⟩

/-- From BORING with no profile pending: no plan, and a plan whose arc THU has in flight, with every pair THRUSTING but
one and with none. -/
theorem witness_SetModeStandbyEmptiesTheSets_holds :
    let few : State := { releasing with thu := { releasing.thu with
      pairs := Vector.replicate 16 { thrusting with state := .faulted .stationFault } } }
    takes (.setMode 1 0) releasing ∧ takes (.setMode 1 0) few
    ∧ ([boring, releasing, few].all fun s => s.mdu.mode == .boring && s.pfs.next == none && s.bld.inbox == []) = true
    ∧ ([releasing, few].all fun s => s.bld.plan.active && s.bld.arcs.any (arcToReseat s)) = true
    ∧ [boring, releasing, few].map (fun s => (after (.setMode 1 0) s).mdu.holds[HoldReason.thrustMin.index])
      = [false, false, true] :=
  ⟨takes_of_empty (by decide) rfl _, takes_of_empty (by decide) rfl _, by decide +kernel, by decide +kernel,
   by decide +kernel⟩

theorem witness_ReadyFromStandbyPostsWhatStands :
    (takes (.setMode 1 1) standby ∧ standby.mdu.mode = .standby ∧ standby.criticalOffline = none
      ∧ ¬ thrustingCount standby.thu < standby.profile.nMin)
    ∧ takes (.setMode 1 1) State.reset ∧ State.reset.mdu.mode = .standby :=
  ⟨⟨takes_standby _, rfl, by decide +kernel, by decide +kernel⟩, takes_reset _, rfl⟩

theorem witness_SetModeReadyAndBoring :
    (takes (.setMode 1 1) boring ∧ boring.mdu.mode ≠ .standby) ∧ (takes (.setMode 1 1) ready ∧ ready.mdu.mode ≠ .standby)
    ∧ (takes (.setMode 1 1) halted ∧ halted.mdu.mode ≠ .standby) ∧ takes (.setMode 1 3) boring
    ∧ (takes (.hold 1 2) boring ∧ switchOfCode 2 = none) ∧ takes (.setMode 1 2) ready ∧ takes (.setMode 1 2) standby
    ∧ takes (.setMode 1 2) boring :=
  ⟨⟨takes_boring _, by decide⟩, ⟨takes_ready _, by decide⟩, ⟨takes_halted _, by decide⟩, takes_boring _,
   ⟨takes_boring _, by decide⟩, takes_ready _, takes_standby _, takes_boring _⟩

theorem witness_HoldRequestPostsHostHold :
    (switchOfCode 0 = some true ∧ switchOfCode 1 = some false ∧ takes (.hold 1 0) boring ∧ takes (.hold 1 1) boring
      ∧ boring.mdu.Lawful)
    ∧ takes (.setMode 1 1) standby ∧ standby.mdu.mode = .standby
    ∧ standby.mdu.holds[HoldReason.hostHold.index] = false ∧ ∃ t, exec (.setMode 1 1) standby = .next t :=
  ⟨⟨by decide, by decide, takes_boring _, takes_boring _, lawful_boring⟩, takes_standby _, rfl, by decide, ⟨_, rfl⟩⟩

theorem witness_StopHaltsUntilAcknowledged :
    takes (.stop 1) boring ∧ boring.mdu.Lawful ∧ boring.pfs.next = none ∧ takes (.stop 1) standby ∧ standby.mdu.Lawful
    ∧ takes (.stop 1) halted ∧ halted.mdu.Lawful ∧ takes (.ackHalt 2) (after (.stop 1) boring)
    ∧ ∃ u, exec (.ackHalt 2) (after (.stop 1) boring) = .next u :=
  ⟨takes_boring _, lawful_boring, rfl, takes_standby _, lawful_standby, takes_halted _, lawful_halted,
   takes_of_empty (by decide +kernel) (by decide +kernel) _, ⟨_, rfl⟩⟩

theorem witness_AcknowledgeRemovesRemovableCauses :
    (takes (.ackHalt 1) halted ∧ halted.mdu.mode = .halted ∧ halted.mdu.halts[HaltCause.stall.index] = some true
      ∧ halted.mdu.halts[HaltCause.loadTrip.index] = some false) ∧ takes (.ackHalt 1) boring :=
  ⟨⟨takes_halted _, rfl, by decide, by decide⟩, takes_boring _⟩

theorem witness_StandstillTimerEndsBoring :
    let s : State := { boring with mdu := { boring.mdu with standstill := .running 300000 } }
    s.mdu.standstill = .running 300000 ∧ s.mdu.Lawful ∧ s.pfs.next = none := by
  refine ⟨rfl, ?_, rfl⟩
  unfold Mdu.Lawful
  decide +kernel

theorem witness_ClosedRingGoesToTheLog :
    412 ≠ boring.rgu.current.number ∧ newestEntry 412 boring.rgu.log = none := by decide

theorem witness_SetRingNumberReopens :
    (takes (.setRingNumber 1 1) standby ∧ standby.mdu.Lawful) ∧ takes (.setRingNumber 1 65535) standby
    ∧ takes (.setRingNumber 1 0) standby ∧ (takes (.setRingNumber 1 2) boring ∧ boring.mdu.Lawful)
    ∧ takes (.setRingNumber 1 412) { weighing with mdu := standby.mdu } :=
  ⟨⟨takes_standby _, lawful_standby⟩, takes_standby _, takes_standby _, ⟨takes_boring _, lawful_boring⟩,
   takes_of_empty (by decide) rfl _⟩

/-- A visit in flight, its station missed `m` times so far. -/
def missing (i : Fin 13) (m : Nat) (s : State) : State :=
  { s with slc := { s.slc with phase := .listening, position := addressOf i, windowTimer := .running 8,
                               stations := s.slc.stations.set i { s.station i with misses := m } } }

theorem witness_StationVisits :
    (after .resetEnd State.reset).slc.phase = .sending ∧ listening.slc.windowTimer = .running 8
    ∧ (0 : Fin 13) = visited listening.slc := by decide +kernel

/-- The third miss and the second, at the stations of every role; a plan active and idle, a line in service and one
isolated; in STANDBY and in BORING with no profile pending. -/
theorem witness_StationVisits_loss :
    ([(0 : Fin 13), 1, 2, 6, 7].all fun i => [boring, releasing, standby].all fun s =>
      i == visited (missing i 2 s).slc && (missing i 2 s).slc.windowTimer == .running 8
      && !(missing i 2 s).slc.unrecorded && ((missing i 2 s).station i).link == .online
      && ((missing i 2 s).station i).enabled && ((missing i 2 s).station i).misses == 2
      && ((missing i 1 s).station i).misses == 1 && (missing i 2 s).pfs.next == none && !(missing i 2 s).fcu.faceBlind)
      = true
    ∧ releasing.bld.plan.active = true ∧ boring.bld.plan.active = false ∧ (boring.line 0).state.inService = true := by
  decide +kernel

theorem witness_StationVisits_loss_laws :
    (missing 0 2 boring).mdu.Lawful ∧ (missing 0 2 standby).mdu.Lawful ∧ (missing 1 2 boring).ScrewLaw
    ∧ boring.mdu.mode ≠ .standstill :=
  ⟨lawful_boring, lawful_standby, by unfold State.ScrewLaw; decide +kernel, by decide⟩

/-- The loss of the DRIVE station stops the drive and halts the machine; a recovery withdraws DRIVE_LOST (R57, R184). -/
theorem test_drive_lost_and_recovered :
    let lost := after .replyWindowExpiry (missing 0 2 boring)
    let found := recordHit 0 (.drive { speed := 0, direction := .cw, torque := 0 }) lost
    lost.chu.drive = .stopped ∧ lost.mdu.mode = .halted ∧ haltMember lost.mdu .driveLost = true
    ∧ (lost.station 0).link = .lost ∧ (found.station 0).link = .online ∧ haltMember found.mdu .driveLost = false := by
  decide +kernel

/-- A DRIVE payload of zeros, with its check characters and with others, and a wrong address character. -/
theorem witness_StationReplyIsJudged :
    (listening.slc.phase = .listening ∧ listening.resetHeld = false ∧ listening.slc.discarding = false
      ∧ listening.slc.reply = [] ∧ listening.slc.unrecorded = false ∧ (0 : Fin 13) = visited listening.slc
      ∧ (List.replicate 5 (0 : Byte)).length = reportLength (roleOf 0))
    ∧ (∀ (n : Nat) (b : Byte), (List.replicate 5 (0 : Byte))[n]? = some b → namedValue (roleOf 0) n b.toNat = true)
    ∧ (0x102 : Char9).toNat ≠ 256 + addressOf (visited listening.slc) := by
  refine ⟨by decide +kernel, fun n b h => ?_, by decide⟩
  obtain rfl := List.eq_of_mem_replicate (List.mem_of_getElem? h)
  change (n != 2 || (directionOfCode 0).isSome) = true
  simp [directionOfCode]

/-- The first three characters of a DRIVE reply are right; the wrong length, a ninth bit and a wrong direction are
not. -/
theorem witness_StationReplyIsJudged_parts :
    let good : List Char9 := [0x101, 0x031, 0x005]
    (0 : Fin 13) = visited listening.slc ∧ good.length < replyLength 0
    ∧ (∀ (n : Nat) (c : Char9), good[n]? = some c → charOk 0 n c = true)
    ∧ charOk 0 2 0x006 = false ∧ charOk 0 3 0x100 = false ∧ charOk 0 5 0x002 = false ∧ charOk 0 1 0x032 = false
    ∧ (after (.stationReply good) listening).slc.reply = good := by
  refine ⟨by decide, by decide, fun n c h => ?_, by decide, by decide, by decide, by decide, by decide +kernel⟩
  match n, h with
  | 0, h => cases h; decide
  | 1, h => cases h; decide
  | 2, h => cases h; decide
  | _ + 3, h => cases h

theorem witness_StationEnableActsByTable :
    takes (.stationEnable 1 1 1) standby ∧ takes (.stationEnable 1 13 1) boring ∧ takes (.stationEnable 1 0 0) boring
    ∧ takes (.stationEnable 1 14 0) boring ∧ takes (.stationEnable 1 7 1) boring ∧ takes (.stationEnable 1 8 2) boring
    ∧ takes (.stationEnable 1 13 0) boring :=
  ⟨takes_standby _, takes_boring _, takes_boring _, takes_boring _, takes_boring _, takes_boring _, takes_boring _⟩

/-- A station that is on and ONLINE turned off, in STANDBY and in BORING; and one that is off turned on with no visit in
flight, at, above and below the position, where every other station is off. -/
theorem witness_StationEnableActsByTable_turned :
    (∀ i : Fin 13, (standby.station i).enabled = true ∧ (standby.station i).link = .online)
    ∧ (boring.station 7).enabled = true ∧ (boring.station 7).link = .online ∧ boring.pfs.next = none
    ∧ (let off (p : Nat) : State :=
        { boring with slc := { boring.slc with position := p, stations := Vector.replicate 13 ⟨false, .lost, 0⟩ } }
      [4, 5, 6].all fun p => (off p).slc.phase == .none && ((off p).station 4).enabled == false
        && canTake (off p) && (off p).hlc.queue == []
        && (after (.stationEnable 1 5 0) (off p)).slc.position == 5) = true := by
  decide +kernel

/-- Every station enabled and NOT_SEEN in STANDBY: the first and the last thrust station, and those beside them. -/
theorem witness_StationEnableActsByTable_notSeen :
    ([2, 3, 6, 7].all fun a => canTake State.reset && decide (1 ≤ a ∧ a ≤ 13)) = true
    ∧ (∀ i : Fin 13, (State.reset.station i).enabled = true ∧ (State.reset.station i).link = .notSeen)
    ∧ State.reset.mdu.mode = .standby ∧ State.reset.hlc.queue = [] := by
  decide +kernel

theorem witness_SetLinkTimingSetsWindow :
    takes (.setLinkTiming 1 2) boring ∧ takes (.setLinkTiming 1 50) listening ∧ takes (.setLinkTiming 1 1) boring
    ∧ takes (.setLinkTiming 1 51) boring
    ∧ (let s := after (.setLinkTiming 1 50) (after .resetEnd State.reset)
       s.slc.phase = .sending ∧ s.slc.nextWindow = some 50) :=
  ⟨takes_boring _, takes_of_empty (by decide) rfl _, takes_boring _, takes_boring _, by decide +kernel⟩

theorem witness_HostFramesComeAndGo :
    let s (k : Nat) (n : Byte) : State := { boring with hlc := { boring.hlc with
      queue := List.replicate k ⟨n, 5, [0]⟩, rx := .header, bytes := [0xC3], gapTimer := .running 10 } }
    ((s 3 9).resetHeld = false ∧ (s 3 9).hlc.queue.length = 3 ∧ (s 4 9).hlc.queue.length = 4)
    ∧ (s 0 9).hlc.gapTimer = .running 10
    ∧ (canTake (s 1 0x1E) = true ∧ (s 1 0x1E).hlc.queue = [⟨0x1E, 5, [0]⟩] ∧ requestLength 0x1E = none)
    ∧ (canTake (s 1 9) = true ∧ (s 1 9).hlc.queue = [⟨9, 5, [0]⟩] ∧ requestLength 9 = some 0)
    ∧ (∃ t, exec .hostFrameSent boring = .next t ∧ t.resetHeld = false ∧ t.hlc.sending = none) :=
  ⟨by decide, rfl, by decide, by decide, ⟨_, rfl, rfl, rfl⟩⟩

theorem witness_HostBytesSpellFrames :
    boring.resetHeld = false ∧ boring.hlc.rx = .hunting ∧ boring.hlc.bytes = [] ∧ boring.hlc.gapTimer = .stopped
    ∧ (List.replicate 200 (0 : Byte)).length ≤ 200 := by decide +kernel

theorem witness_RestartReachesEveryUnit :
    takes (.restart 1) boring ∧ boring.pfs.next = none ∧ takes (.restart 1) (waiting boring) :=
  ⟨takes_boring _, rfl, takes_waiting _⟩

/-- A state that meets every law that steps keep, and steps: a credited pulse in BORING. -/
def pulsed : State := { boring with pending := [.advPPulse true] }

theorem witness_StepKeepsModeLaw : pulsed.ModeLaw ∧ pulsed.Told ∧ ∃ t, step pulsed = .next t :=
  ⟨⟨lawful_boring, by decide⟩, by unfold State.Told; decide, ⟨_, rfl⟩⟩

theorem witness_StepKeepsListsBounded : pulsed.Bounded ∧ ∃ t, step pulsed = .next t :=
  ⟨by unfold State.Bounded; decide, ⟨_, rfl⟩⟩

theorem witness_StepKeepsPairsCommanded : pulsed.PairsCommanded ∧ ∃ t, step pulsed = .next t :=
  ⟨by unfold State.PairsCommanded; decide +kernel, ⟨_, rfl⟩⟩

theorem witness_StepKeepsScrewLaw : pulsed.ScrewLaw ∧ ∃ t, step pulsed = .next t :=
  ⟨by unfold State.ScrewLaw; decide +kernel, ⟨_, rfl⟩⟩

theorem witness_StepKeepsAdvanceLaw : pulsed.AdvanceLaw ∧ ∃ t, step pulsed = .next t :=
  ⟨by unfold State.AdvanceLaw; decide +kernel, ⟨_, rfl⟩⟩

theorem witness_StepKeepsCutterLaw : pulsed.CutterLaw ∧ ∃ t, step pulsed = .next t :=
  ⟨by unfold State.CutterLaw; decide +kernel, ⟨_, rfl⟩⟩

theorem witness_StepKeepsGroutLaw : pulsed.GroutLaw ∧ ∃ t, step pulsed = .next t :=
  ⟨groutLaw_of_standby_lines _ rfl rfl, ⟨_, rfl⟩⟩

/-- A segment in the list and a plan that waits. -/
theorem witness_StepKeepsBuildLaw :
    let s : State := { waiting pulsed with rgu := { pulsed.rgu with current := { pulsed.rgu.current with
      segments := [⟨1, .standard, 0, 3, .placed⟩] } } }
    s.BuildLaw ∧ ∃ t, step s = .next t := by
  refine ⟨⟨⟨by decide +kernel, fun n g h => ?_, by decide +kernel, by decide +kernel⟩, by decide +kernel,
    by decide +kernel, fun _ _ _ _ _ h => ?_⟩, ⟨_, rfl⟩⟩
  · match n, h with
    | 0, h =>
      obtain rfl := Option.some.inj h
      exact ⟨rfl, fun hk => by cases hk⟩
    | n + 1, h => cases h
  · cases h

theorem witness_StepKeepsLinkLaws :
    listening.StationLinkLaw ∧ listening.HostLinkLaw ∧ ∃ t, step { listening with pending := [.replyWindowExpiry] } = .next t := by
  refine ⟨⟨by decide, by decide, by decide, by decide, by decide, by decide, ?_, by decide +kernel⟩, ⟨rfl, by decide, rfl⟩,
    ⟨_, rfl⟩⟩
  intro w h
  cases h

theorem witness_RequestFramesReadBack :
    Instr.wellFormed (.steer 7 5000 14000 65535 0) = true
    ∧ frameOf (.steer 7 5000 14000 65535 0) = some ⟨0x0C, 7, [0x13, 0x88, 0x36, 0xB0, 0xFF, 0xFF, 0, 0]⟩
    ∧ Instr.wellFormed (.chamberTrim 7 (-32768)) = true
    ∧ frameOf (.chamberTrim 7 (-32768)) = some ⟨0x0D, 7, [0x80, 0x00]⟩ := by decide +kernel

end Sys2Proof.Tests
end

section
/-! SUPPORT. The Advance Unit: what the transmitter's look at the end of a command leaves unchanged, reset, the
repaying pulse, and the figures of an advance step. -/

namespace Sys2Proof.Machine

/-! ## The end of a command -/

section
variable (s : State)
@[simp] theorem pump_adv : (pump s).adv = s.adv := pump_frame s .adv (by decide)
@[simp] theorem pump_thu : (pump s).thu = s.thu := pump_frame s .thu (by decide)
@[simp] theorem pump_chu : (pump s).chu = s.chu := pump_frame s .chu (by decide)
@[simp] theorem pump_fcu : (pump s).fcu = s.fcu := pump_frame s .fcu (by decide)
@[simp] theorem pump_gru : (pump s).gru = s.gru := pump_frame s .gru (by decide)
@[simp] theorem pump_bld : (pump s).bld = s.bld := pump_frame s .bld (by decide)
@[simp] theorem pump_rgu : (pump s).rgu = s.rgu := pump_frame s .rgu (by decide)
@[simp] theorem pump_pfs : (pump s).pfs = s.pfs := pump_frame s .pfs (by decide)
@[simp] theorem pump_mdu : (pump s).mdu = s.mdu := pump_frame s .mdu (by decide)
@[simp] theorem pump_slc : (pump s).slc = s.slc := pump_frame s .slc (by decide)
@[simp] theorem pump_resetHeld : (pump s).resetHeld = s.resetHeld := pump_frame s .resetLine (by decide)
@[simp] theorem pump_now : (pump s).now = s.now := pump_frame s .clock (by decide)
@[simp] theorem pump_pending : (pump s).pending = s.pending := pump_frame s .queue (by decide)

/-- While RESET-N is asserted the transmitter stays idle (R196). -/
theorem pump_of_resetHeld (h : s.resetHeld = true) : pump s = s := by simp [pump, h]

/-- Nothing leaves out of turn: what waits to leave is the same before and after the transmitter's look (R196). -/
@[simp] theorem pump_transmission : transmission (pump s) = transmission s := by
  unfold pump transmission outgoing
  split
  · rfl
  · split <;> simp_all

theorem pump_linkQuiet : linkQuiet s (pump s) := by
  refine ⟨?_, pump_queue s, pump_inProcess s, ?_, pump_transmission s⟩
  all_goals
    unfold pump
    split
    · simp [receiverSame]
    · split <;> simp [receiverSame]
end

/-- A command that leaves the host link alone is quiet on it. -/
theorem linkQuiet_pump_of_hlc {s u : State} (h : u.hlc = s.hlc) : linkQuiet s (pump u) := by
  have quiet := pump_linkQuiet u
  simpa only [linkQuiet, receiverSame, transmission, outgoing, h] using quiet

/-- The frame of a command whose effect has the frame `l`. -/
theorem onlyChanges_pump {l : List Part} {s u : State} (h : onlyChanges l s u) (hl : .hlc ∈ l) :
    onlyChanges l s (pump u) :=
  onlyChanges_then pump_frame h (by simpa using hl)

/-! ## Reset (R19) -/

theorem exec_powerOnReset (s : State) :
    exec .powerOnReset s = .next { State.reset with resetHeld := true, pending := s.pending } :=
  congrArg Host.Outcome.next (pump_of_resetHeld _ rfl)

/-- A step before the first SET_GEOMETRY carries no figures (R13). -/
theorem stepRecord_of_unset (d : Nat) {s : State} (h : s.geometry = none) :
    (stepRecord d s).volume = 0 ∧ (stepRecord d s).mass = 0 ∧ (stepRecord d s).grout = Vector.replicate 6 0 := by
  simp [stepRecord, h]

/-! ## Pulses (R1, R3) -/

theorem pulseClass_repaying {debt : Nat} (h : 0 < debt) : pulseClass true debt = .repaying := by
  simp [pulseClass, h]

@[simp] theorem pulseClass_credited : pulseClass true 0 = .credited := rfl

/-- A pulse while RESET-N is not asserted is taken whole (R1). -/
theorem exec_advPPulse {s : State} (h : s.resetHeld = false) (advD : Bool) :
    exec (.advPPulse advD) s = .next (pump (takePulse advD s)) := by
  change finish (if s.resetHeld then s else takePulse advD s) = _
  rw [h]
  rfl

theorem takePulse_repaying {s : State} (h : 0 < s.adv.debt) : takePulse true s = repayingPulse s := by
  simp [takePulse, pulseClass_repaying h]

theorem markHalt_mdu (c : HaltCause) (removable : Bool) (s : State) :
    (markHalt c removable s).mdu =
      if haltMember s.mdu c then { s.mdu with halts := s.mdu.halts.set c.index (some removable) } else s.mdu := by
  unfold markHalt
  split <;> rfl

/-- The last repaying pulse also makes ROLLBACK_LIMIT removable (R3). -/
theorem repayingPulse_of_last {s : State} (h : s.adv.debt = 1) :
    repayingPulse s = markHalt .rollbackLimit true (s.onAdv fun a => { a with debt := a.debt - 1 }) :=
  if_pos (by simp [h])

theorem repayingPulse_of_more {s : State} (h : 1 < s.adv.debt) :
    repayingPulse s = s.onAdv fun a => { a with debt := a.debt - 1 } :=
  if_neg (by simp only [State.onAdv_adv]; omega)

theorem repayingPulse_adv (s : State) : (repayingPulse s).adv = { s.adv with debt := s.adv.debt - 1 } := by
  unfold repayingPulse
  dsimp only
  split
  · exact markHalt_frame _ _ _ .adv (by decide)
  · rfl

/-! ## The figures of a step with the geometry record set (R7, R8) -/

section
variable {s : State} {g : Geometry} (d : Nat) (hg : s.geometry = some g)
include hg

theorem stepRecord_mass :
    (stepRecord d s).mass = massNumerator s.profile (stepRecord d s).volume s.adv.remMass / 1000000 := by
  simp [stepRecord, hg]

theorem advAfterStep_remMass :
    (advAfterStep d s).remMass = massNumerator s.profile (stepRecord d s).volume s.adv.remMass % 1000000 := by
  simp [stepRecord, advAfterStep, hg]

theorem stepRecord_grout (i : Fin 6) :
    (stepRecord d s).grout[i] =
      if (s.line i).effective = 0 then 0
      else groutNumerator g s.profile d (s.line i).effective s.adv.remGrout[i] / 2560000 := by
  unfold stepRecord
  rw [hg]
  exact Vector.getElem_ofFn i.isLt

theorem advAfterStep_remGrout (i : Fin 6) :
    (advAfterStep d s).remGrout[i] =
      if (s.line i).effective = 0 then s.adv.remGrout[i]
      else groutNumerator g s.profile d (s.line i).effective s.adv.remGrout[i] % 2560000 := by
  unfold advAfterStep
  rw [hg]
  exact Vector.getElem_ofFn i.isLt

/-- The mass handed on and the mass carried add up to the step's mass (R7). -/
theorem stepMass_exact :
    1000000 * (stepRecord d s).mass + (advAfterStep d s).remMass
        = massNumerator s.profile (stepRecord d s).volume s.adv.remMass
      ∧ (advAfterStep d s).remMass < 1000000 := by
  rw [stepRecord_mass d hg, advAfterStep_remMass d hg]
  exact ⟨Nat.div_add_mod _ _, Nat.mod_lt _ (by decide)⟩

/-- A line of weight 0 has no demand and keeps its remainder (R8). -/
theorem stepGrout_of_weight_zero {i : Fin 6} (h : (s.line i).effective = 0) :
    (stepRecord d s).grout[i] = 0 ∧ (advAfterStep d s).remGrout[i] = s.adv.remGrout[i] := by
  rw [stepRecord_grout d hg, advAfterStep_remGrout d hg, if_pos h, if_pos h]
  exact ⟨rfl, rfl⟩

/-- The demand handed to a line and the part carried add up to the line's demand (R8). -/
theorem stepGrout_exact {i : Fin 6} (h : 0 < (s.line i).effective) :
    2560000 * (stepRecord d s).grout[i] + (advAfterStep d s).remGrout[i]
        = groutNumerator g s.profile d (s.line i).effective s.adv.remGrout[i]
      ∧ (advAfterStep d s).remGrout[i] < 2560000 := by
  rw [stepRecord_grout d hg, advAfterStep_remGrout d hg, if_neg h.ne', if_neg h.ne']
  exact ⟨Nat.div_add_mod _ _, Nat.mod_lt _ (by decide)⟩
end

end Sys2Proof.Machine

namespace Sys2Proof.Proofs
open Sys2Proof.Machine

/-- Settles O3: the state after POWER_ON_RESET is the reset state with RESET-N asserted, and with the geometry record
UNSET a step has no figures. -/
theorem powerOnResetOfAdvance : Obligations.PowerOnResetOfAdvance := by
  intro s
  exact ⟨_, exec_powerOnReset s, rfl, rfl, rfl, rfl, rfl, fun d => stepRecord_of_unset d rfl, rfl, rfl, rfl,
    rfl⟩

/-- Settles O8: the pulse is of the class repaying, and it brings the debt to 0 exactly from 1. -/
theorem repayingPulse : Obligations.RepayingPulse := by
  intro s running owing
  refine ⟨_, exec_advPPulse running true, ?_⟩
  rw [takePulse_repaying owing]
  have frame := repayingPulse_frame s
  refine ⟨?adv, ?mdu, ?next, onlyChanges_pump (onlyChanges_mono frame (by decide)) (by decide),
    linkQuiet_pump_of_hlc (frame .hlc (by decide))⟩
  case adv => rw [pump_adv, repayingPulse_adv]
  case mdu =>
    rw [pump_mdu]
    obtain last | more : s.adv.debt = 1 ∨ 1 < s.adv.debt := by omega
    · rw [repayingPulse_of_last last, markHalt_mdu]
      exact if_congr (by simp [last]) rfl rfl
    · simp [repayingPulse_of_more more, more.ne']
  case next =>
    rw [pump_adv, repayingPulse_adv]
    split
    case isTrue last => simp [last]
    case isFalse more => exact pulseClass_repaying (by dsimp only; omega)

/-- Settles O11: each figure is the quotient, and each new remainder the rest, of one division. -/
theorem stepMassAndGrout : Obligations.StepMassAndGrout := by
  intro d s g hg
  obtain ⟨mass, massRest⟩ := stepMass_exact d hg
  refine ⟨mass, Nat.le_of_lt_succ massRest, fun i => ⟨stepGrout_of_weight_zero d hg, fun weighted => ?_⟩⟩
  obtain ⟨grout, groutRest⟩ := stepGrout_exact d hg weighted
  exact ⟨grout, Nat.le_of_lt_succ groutRest⟩

end Sys2Proof.Proofs
end

section
/-! The facts about the Build Unit at reset (R135) and about the operation numbers (R117). -/

namespace Sys2Proof.Machine

theorem bldReset_table (n : Fin 128) : Bld.reset.table[n] = PlanStep.default := by
  simp [Bld.reset]

theorem nextNumber_of_lt {n : Nat} (h : n < 255) : nextNumber n = n + 1 := by
  simp [nextNumber, h]

end Sys2Proof.Machine

namespace Sys2Proof.Proofs

open Sys2Proof.Machine

/-- Settles O4: BLD is at its reset value after POWER_ON_RESET, each slot of its table holds the default step, and the
operation after number 0 is number 1. -/
theorem powerOnResetOfBuild : Obligations.PowerOnResetOfBuild := by
  intro s
  have firstOperation : nextNumber Bld.reset.opNumber = 1 := nextNumber_of_lt (by decide)
  exact ⟨_, exec_powerOnReset s, bldReset_table, rfl, rfl, rfl, rfl, rfl, rfl, rfl, rfl, rfl, rfl, rfl, rfl, rfl, rfl,
    rfl, firstOperation⟩

end Sys2Proof.Proofs
end

section
/-! The facts about the ring log (R137, R145, R146): which entry is the newest of a number and what a change of it
leaves, what a close appends, and when a settled balance is entered. -/

namespace Sys2Proof.Machine

/-! ## The newest entry of a list (R137) -/

theorem changeNewest_of_none {p : LogEntry → Bool} {log : List LogEntry} (h : ∀ x ∈ log, p x = false)
    (f : LogEntry → LogEntry) : changeNewest p f log = log := by
  have past : log.reverse.findIdx p = log.reverse.length := List.findIdx_eq_length_of_false (by simpa using h)
  rw [changeNewest, List.modify_eq_self past.ge, List.reverse_reverse]

/-- The change falls on the last entry that satisfies the test, and every other entry keeps its place. -/
theorem changeNewest_append_cons {p : LogEntry → Bool} {e : LogEntry} {older newer : List LogEntry}
    (he : p e = true) (h : ∀ x ∈ newer, p x = false) (f : LogEntry → LogEntry) :
    changeNewest p f (older ++ e :: newer) = older ++ f e :: newer := by
  have reversed : (older ++ e :: newer).reverse = newer.reverse ++ e :: older.reverse := by simp
  have skipped : newer.reverse.findIdx p = newer.reverse.length := List.findIdx_eq_length_of_false (by simpa using h)
  have found : (newer.reverse ++ e :: older.reverse).findIdx p = newer.reverse.length := by
    simp [List.findIdx_append, List.findIdx_cons, skipped, he]
  rw [changeNewest, reversed, found, List.modify_eq_take_drop]
  simp

theorem newestEntry_eq_none_iff {n : Nat} {log : List LogEntry} :
    newestEntry n log = none ↔ ∀ x ∈ log, (x.record.number == n) = false := by
  simp [newestEntry]

/-- The newest entry of a number carries it, and no later entry does. -/
theorem newestEntry_eq_some_iff {n : Nat} {e : LogEntry} {log : List LogEntry} :
    newestEntry n log = some e ↔ (e.record.number == n) = true ∧
      ∃ older newer, log = older ++ e :: newer ∧ ∀ x ∈ newer, (x.record.number == n) = false := by
  rw [newestEntry, List.find?_eq_some_iff_append]
  refine and_congr_right fun _ => ⟨fun ⟨as, bs, split, skipped⟩ => ?_, fun ⟨older, newer, split, skipped⟩ => ?_⟩
  · exact ⟨bs.reverse, as.reverse, by simpa using congrArg List.reverse split, by simpa using skipped⟩
  · exact ⟨newer.reverse, older.reverse, by simp [split], by simpa using skipped⟩

/-- Replacing one element leaves every other place as it is. -/
theorem getElem?_append_cons_replace {α : Type} (a b : List α) (x y : α) (k : Nat) :
    (a ++ y :: b)[k]? = (a ++ x :: b)[k]?
      ∨ (a ++ x :: b)[k]? = some x ∧ (a ++ y :: b)[k]? = some y := by
  obtain before | rfl | after := lt_trichotomy k a.length
  · simp [List.getElem?_append_left before]
  · simp
  · left
    obtain ⟨d, rfl⟩ := Nat.exists_eq_add_of_lt after
    simp [List.getElem?_append_right, Nat.add_assoc]

/-! ## Changing an entry or a record by its number (R137, R145) -/

section
variable (n : Nat) (f : LogEntry → LogEntry) (s : State)

@[simp] theorem onEntry_log :
    (onEntry n f s).rgu.log = changeNewest (fun e => e.record.number == n) f s.rgu.log := rfl

@[simp] theorem onEntry_current : (onEntry n f s).rgu.current = s.rgu.current := rfl

@[simp] theorem onEntry_hlc : (onEntry n f s).hlc = s.hlc := rfl
end

/-- A change for a number that no entry carries is discarded (R145). -/
theorem onEntry_of_none {n : Nat} {s : State} (h : newestEntry n s.rgu.log = none) (f : LogEntry → LogEntry) :
    onEntry n f s = s := by
  simp only [onEntry, State.onRgu, changeNewest_of_none (newestEntry_eq_none_iff.mp h)]

/-- A change for a ring that is neither open nor in the log is discarded (R145). -/
theorem onRing_of_none {n : Nat} {s : State} (hn : n ≠ s.rgu.current.number)
    (h : newestEntry n s.rgu.log = none) (f : RingRecord → RingRecord) : onRing n f s = s := by
  rw [onRing, if_neg hn.symm, onEntry_of_none h]

/-! ## Closing (R143, R145) -/

@[simp] theorem notify_rgu (k : NoticeKind) (fs : List Field) (s : State) : (notify k fs s).rgu = s.rgu :=
  notify_frame s k fs .rgu (by decide)

@[simp] theorem withdrawHold_rgu (r : HoldReason) (s : State) : (withdrawHold r s).rgu = s.rgu :=
  withdrawHold_frame s r .rgu (by decide)

@[simp] theorem beginFigures_rgu (n : Nat) (s : State) : (beginFigures n s).rgu = s.rgu := rfl

@[simp] theorem flagOpen_log (f : RingFlags → RingFlags) (s : State) : (flagOpen f s).rgu.log = s.rgu.log := rfl

/-- GRU hands the figures over to the newest entry of the closed ring (R108). -/
theorem closeFigures_log (closed opened : Nat) (s : State) :
    (closeFigures closed opened s).rgu.log
      = changeNewest (fun e => e.record.number == closed)
          (fun e => { e with figures := some (lineFigures s.gru) }) s.rgu.log := by
  unfold closeFigures
  dsimp only
  split <;> simp

/-- The log's room is made before the closed entry is appended (R145). -/
theorem appendLog_eq (log : List LogEntry) (e : LogEntry) :
    appendLog log e = (if log.length < Config.logCapacity then log else log.drop 1) ++ [e] := by
  unfold appendLog
  split <;> rfl

theorem appendLog_length_of_full {log : List LogEntry} (h : log.length = Config.logCapacity) (e : LogEntry) :
    (appendLog log e).length = Config.logCapacity := by
  simp [appendLog, h]

theorem appendLog_length_of_room {log : List LogEntry} (h : log.length < Config.logCapacity) (e : LogEntry) :
    (appendLog log e).length = log.length + 1 := by
  simp [appendLog, h]

/-- An entry just appended is the newest of its number. -/
theorem changeNewest_appendLog {p : LogEntry → Bool} {e : LogEntry} (he : p e = true) (log : List LogEntry)
    (f : LogEntry → LogEntry) : changeNewest p f (appendLog log e) = appendLog log (f e) := by
  rw [appendLog_eq, appendLog_eq, changeNewest_append_cons he (by simp)]

/-- A close appends the closed record, with the figures that GRU hands over, to the log (R108, R143, R145). -/
theorem closeRing_log (s : State) : ∃ figures,
    (closeRing s).rgu.log
      = appendLog s.rgu.log { closedEntry s.rgu.current s.adv.stroke with figures := some figures } := by
  unfold closeRing
  simp only [notify_rgu, closeFigures_log, withdrawHold_rgu, State.onAdv_rgu, State.onRgu_rgu]
  exact ⟨_, changeNewest_appendLog (by simp [closedEntry]) _ _⟩

/-! ## Settlement (R146) -/

theorem settleRing_of_none {n : Nat} {s : State} (h : newestEntry n s.rgu.log = none) (b : Balance) :
    settleRing n b s = s := by
  simp [settleRing, h]

theorem settleRing_of_settled {n : Nat} {e : LogEntry} {s : State} (h : newestEntry n s.rgu.log = some e)
    (settled : e.settled.isSome) (b : Balance) : settleRing n b s = s := by
  obtain ⟨_, hb⟩ := Option.isSome_iff_exists.mp settled
  simp [settleRing, h, hb]

theorem settleRing_of_unsettled {n : Nat} {e : LogEntry} {s : State} (h : newestEntry n s.rgu.log = some e)
    (unsettled : e.settled = none) (b : Balance) :
    settleRing n b s = notify .ringSettled [u2 n, u4 b.expected, u4 b.measured, opt 2 b.ratio]
      (onEntry n (fun e => { e with settled := some b }) s) := by
  simp [settleRing, h, unsettled]

/-- What is appended to the notice queue depends on the host link alone. -/
theorem notify_hlc_congr {s t : State} (h : t.hlc = s.hlc) (k : NoticeKind) (fs : List Field) :
    (notify k fs t).hlc = (notify k fs s).hlc := by
  simp only [notify, State.onHlc_hlc, h]

end Sys2Proof.Machine

namespace Sys2Proof.Proofs

open Sys2Proof.Machine

/-- Settles O41: the entry that GRU's figures reach is the one just appended, and a number that no entry carries
reaches nothing. -/
theorem closedRingGoesToTheLog : Obligations.ClosedRingGoesToTheLog := by
  refine ⟨fun s => ?_, fun s n hn absent => ⟨onRing_of_none hn absent, onEntry_of_none absent,
    settleRing_of_none absent⟩⟩
  obtain ⟨figures, log⟩ := closeRing_log s
  rw [log]
  exact ⟨_, appendLog_eq _ _, rfl, rfl, rfl, fun full => appendLog_length_of_full full _,
    fun room => appendLog_length_of_room room _⟩

/-- Settles O42: entering the balance replaces the newest entry of the number in its place, and the entry then holds a
balance, so that the next one is discarded. -/
theorem balanceIsSettledOnce : Obligations.BalanceIsSettledOnce := by
  intro n b s
  cases newest : newestEntry n s.rgu.log with
  | none => exact settleRing_of_none newest b
  | some e =>
    dsimp only
    split
    case isTrue settled => exact settleRing_of_settled newest settled b
    case isFalse unsettled =>
      have entered := settleRing_of_unsettled newest (by simpa using unsettled) b
      obtain ⟨carries, older, newer, log, later⟩ := newestEntry_eq_some_iff.mp newest
      have newLog : (settleRing n b s).rgu.log = older ++ { e with settled := some b } :: newer := by
        rw [entered, notify_rgu, onEntry_log, log, changeNewest_append_cons carries later]
      have newNewest : newestEntry n (settleRing n b s).rgu.log = some { e with settled := some b } :=
        newestEntry_eq_some_iff.mpr ⟨carries, older, newer, newLog, later⟩
      refine ⟨newNewest, ?length, fun k => ?entries, ?current, ?notice, settleRing_frame s n b,
        settleRing_of_settled newNewest rfl⟩
      case length => simp [newLog, log]
      case entries =>
        rw [newLog, log]
        exact getElem?_append_cons_replace older newer e _ k
      case current => rw [entered, notify_rgu, onEntry_current]
      case notice => rw [entered, notify_hlc_congr (onEntry_hlc n _ s)]

end Sys2Proof.Proofs
end
